-- ==== Sys2Proof/Word.lean ====
section
/-! DEFINITION. The widths of the block: bytes, bus addresses, the 16-bit count and the 32-bit trace word
(spec/00_scope.md R9, R10; spec/30_encoding.md R91). -/

namespace Sys2Proof

/-- A bus datum, `DATA_W` = 8 bits (00_scope.md R9). -/
abbrev Byte := BitVec 8

/-- A bus address, `ADDR_W` = 16 bits (00_scope.md R9). -/
abbrev Addr := BitVec 16

/-- The interrupt counter, `COUNT_W` = 16 bits (00_scope.md R9). -/
abbrev Count := BitVec 16

/-- A trace word (30_encoding.md R91). -/
abbrev Word := BitVec 32

/-- A controller port index, 0 to 3 (00_scope.md R9: "ports indexed 0–3"). Whether the port is present is a fact
about the state: `NPORTS` is the number of ports the state holds. -/
abbrev PortIx := Fin 4

/-- The number of stored internal registers, `reg[0x0]` to `reg[0xC]` (10_state.md R22). -/
abbrev RegIx := Fin 13

end Sys2Proof
end

