-- ==== Sys2Proof/Config.lean ====
section
/-! DEFINITION. The parameters of the block (spec/00_scope.md R9). The decided ones are the fields of `Params`, which the
machine takes as arguments; their defaults stand in Machine/AddressMap.lean. The OPEN ones are free values without a body,
so that a claim holds for every value. -/

namespace Sys2Proof

/-- The parameters the spec decides a default for (00_scope.md R9; 93_implementation_defined.md U32: "`parameter` with
defaults from general knowledge"). `NPORTS` is the number of ports of the state and `FILTER_MODE[p]` a field of each port;
`VARIANT_REFERENCE` and the tags are symbolic (log 7); "Nothing else is parametric" (R10). -/
structure Params where
  /-- `LOW_LO`, `LOW_HI`: the low address window, inclusive (D2). -/
  lowLo : Addr
  lowHi : Addr
  /-- `CMD_LO`, `CMD_HI`: the command port's window, inclusive (D2). -/
  cmdLo : Addr
  cmdHi : Addr
  /-- `DATA_LO`, `DATA_HI`: the data port's window, inclusive (D2). -/
  dataLo : Addr
  dataHi : Addr
  /-- `PAD_STROBE_ADDR`, `PAD_DATA_ADDR[0]`, `PAD_DATA_ADDR[1]` (D22). -/
  padStrobeAddr : Addr
  padData0Addr : Addr
  padData1Addr : Addr
  /-- `D_EN_BIT`, `D_SRC_BIT`: the bits of register D (D7). -/
  enBit : Fin 8
  srcBit : Fin 8
  /-- `REG_RESET` (D13). -/
  regReset : Byte
  /-- `BTN_*`: the bit of each button in a button mask (D15). -/
  btnA : Fin 8
  btnB : Fin 8
  btnSelect : Fin 8
  btnStart : Fin 8
  btnUp : Fin 8
  btnDown : Fin 8
  btnLeft : Fin 8
  btnRight : Fin 8
  /-- `AUX_POS`, `AUX_PORT` (D17). -/
  auxPos : Fin 8
  auxPort : PortIx
  /-- `PAGE_SIZE` (D34). -/
  pageSize : Nat
  deriving DecidableEq, Repr

end Sys2Proof

namespace Sys2Proof.Config

/-- `OPEN_BUS`, "a fixed open-bus constant": one byte, the same for every address and every time, no value given
(00_scope.md R9, 40_dispatch.md R126, D3; log 2). -/
opaque openBus : Byte

/-- `PAD_EXHAUSTED_BIT` (`K`): the bit every read past the eighth returns; no value given (00_scope.md R9,
43_controller.md R194, R212, D16; log 3). Not tied to `openBus` (90_conflicts.md C5). -/
opaque padExhausted : BitVec 1

/-- The content, per offset, of work RAM that nothing has written: "a model must not fix a value"
(20_memory.md R77, 93_implementation_defined.md U11; log 8). -/
opaque ramPowerOn : Nat → Byte

/-- What the low window shows, per page number and offset, where 20_memory.md R77 states no result: `NPAGES` is 0, or the
byte it names lies past the end of the program ROM (log 9). -/
opaque romAbsent : Nat → Nat → Byte

end Sys2Proof.Config
end

