-- ==== Sys2Proof/Syntax.lean ====
section
/-! DEFINITION. The operations of the block, one constructor per row of spec/opcode_table.json, their separate
operands (Context, snapshot), and the trace item that carries an operation (spec/30_encoding.md R90 to R93, R106). -/

namespace Sys2Proof

/-- The six direction-conflict modes (10_state.md R40, 30_encoding.md R105). -/
inductive FilterMode where
  | off | neutral | firstPress | latestPress | firstRepress | latestRepress
  deriving DecidableEq, Repr

/-- The four checkpoints of `SYNC` (30_encoding.md R93). -/
inductive SyncEvent where
  | frameStart | frameEnd | addrEdge | strobeEdge
  deriving DecidableEq, Repr

/-- The read handlers a board may bind: the reference board has one, the low-window page read
(42_reference_board.md R155). -/
inductive ReadHandler where
  | lowPage
  deriving DecidableEq, Repr

/-- The write handlers a board may bind (42_reference_board.md R155). -/
inductive WriteHandler where
  | lowRam | commandPort | dataPort
  deriving DecidableEq, Repr

/-- "a read handler, a write handler, or both" (40_dispatch.md R122). -/
inductive Handler where
  | reads (r : ReadHandler)
  | writes (w : WriteHandler)
  | both (r : ReadHandler) (w : WriteHandler)
  deriving DecidableEq, Repr

/-- One address-range binding, bounds inclusive (10_state.md R31, 40_dispatch.md R122). -/
structure Binding where
  low : Addr
  high : Addr
  handler : Handler
  deriving DecidableEq, Repr

/-- A read-only byte sequence of `size` bytes, written sparsely: `cells` lists, offsets strictly rising, the bytes that
are not 0x00; a byte below `size` that is not listed is 0x00 (log 9). -/
structure Rom where
  size : Nat
  cells : List (Nat × Byte)
  deriving DecidableEq, Repr

/-- The variant selector: `VARIANT_REFERENCE` is symbolic, every other value names no supported variant
(00_scope.md R9, 40_dispatch.md R121, D30; log 7). -/
inductive VariantSelector where
  | reference
  | other (n : Nat)
  deriving DecidableEq, Repr

/-- The `ramPresenceFlags` of the Context. `workRam` is the flag 20_memory.md R77 calls `ramPresent`; the others are
carried and never interpreted (91_not_in_source.md N31; log 10). -/
structure RamFlags where
  workRam : Bool
  others : List Bool
  deriving DecidableEq, Repr

/-- The immutable construction parameters (00_scope.md R17, 20_memory.md R66). `mirroringMode` and `characterROM` belong
to the collaborator and are never interpreted (log 10). -/
structure Context where
  programROM : Rom
  characterROM : Rom
  mirroringMode : Nat
  variantSelector : VariantSelector
  ramPresenceFlags : RamFlags
  deriving DecidableEq, Repr

/-- A chunk tag. `BOARD_TAG` and the `NPORTS` distinct `PAD_TAG[p]` are symbolic; any other four bytes are a tag this
reader does not know (44_snapshot.md R234, R236, R239, D23, D24; log 7). -/
inductive Tag where
  | board
  | pad (p : PortIx)
  | other (b0 b1 b2 b3 : Byte)
  deriving DecidableEq, Repr

/-- `{tag, sub-version, payload}`, the sub-version 0 to 255 (30_encoding.md R106). -/
structure Chunk where
  tag : Tag
  subVersion : Byte
  payload : List Byte
  deriving DecidableEq, Repr

/-- "A snapshot is an ordered list of chunks" (44_snapshot.md R230). -/
abbrev Snapshot := List Chunk

/-- The operations, one constructor per row of the opcode table. The operand `a` of a bus operation is its bus address,
`v` the byte written; `p` is a port. None is a fence, a barrier, an atomic, a reservation or a semaphore (20_memory.md
R80). -/
inductive Instr where
  | wrCmd (a : Addr) (v : Byte)
  | setBank0 (a : Addr) (v : Byte)
  | setBank1 (a : Addr) (v : Byte)
  | setBank2 (a : Addr) (v : Byte)
  | setBank3 (a : Addr) (v : Byte)
  | setBank4 (a : Addr) (v : Byte)
  | setBank5 (a : Addr) (v : Byte)
  | setBank6 (a : Addr) (v : Byte)
  | setBank7 (a : Addr) (v : Byte)
  | setLowCtl0 (a : Addr) (v : Byte)
  | setLowCtl1 (a : Addr) (v : Byte)
  | setRegA (a : Addr) (v : Byte)
  | setRegB (a : Addr) (v : Byte)
  | setRegC (a : Addr) (v : Byte)
  | setIrqCtl (a : Addr) (v : Byte)
  | setCntLo (a : Addr) (v : Byte)
  | setCntHi (a : Addr) (v : Byte)
  | wrLow (a : Addr) (v : Byte)
  | rdLow (a : Addr)
  | rdCmdData (a : Addr)
  | wrStrobe (v : Byte)
  | rdPad0
  | rdPad1
  | rdUnmapped (a : Addr)
  | wrUnmapped (a : Addr) (v : Byte)
  | clk
  | rstSoft
  | rstHard
  | syncFrameStart
  | syncFrameEnd
  | syncAddrEdge
  | syncStrobeEdge
  | bf (p : PortIx)
  | pw (p : PortIx) (v : Byte)
  | prLow (p : PortIx)
  | prHigh (p : PortIx)
  | save
  | load (snap : Snapshot) (formatVersionTag : Nat)
  | new (ctx : Context)
  | del
  | input (p : PortIx) (mask : Byte) (aux : Bool)
  | mode (p : PortIx) (m : FilterMode)
  | range (low high : Addr) (h : Handler)
  deriving DecidableEq, Repr

/-- The separate operand of a trace word: NEW's Context, LOAD's snapshot with the `formatVersionTag` that is carried and
not interpreted (30_encoding.md R91, 44_snapshot.md R233; log 20). -/
inductive Operand where
  | none
  | context (ctx : Context)
  | snapshot (snap : Snapshot) (formatVersionTag : Nat)
  deriving DecidableEq, Repr

/-- One line of a trace: its word and its separate operand (30_encoding.md R91). -/
structure TraceItem where
  word : Word
  operand : Operand
  deriving DecidableEq, Repr

/-- Why a trace item is not an operation (30_encoding.md R111; `operandMissing`, `operandUnused`: log 12). -/
inductive DecodeReject where
  /-- `kind` 0xE or 0xF. -/
  | unknownKind
  /-- `R` or `W` with `sub` not 0. -/
  | busSub
  /-- `RST` with `sub` above 1. -/
  | badReset
  /-- `SYNC` with `sub` above 3. -/
  | badEvent
  /-- a port at or above `NPORTS`. -/
  | badPort
  /-- `MODE` with `data` above 5. -/
  | badMode
  /-- a non-zero bit in a field the operation does not use. -/
  | unusedField
  /-- `NEW` without a Context or `LOAD` without a snapshot. -/
  | operandMissing
  /-- a separate operand beside a word that takes none. -/
  | operandUnused
  deriving DecidableEq, Repr

end Sys2Proof
end

