-- ==== Sys2Proof/Machine/AddressMap.lean ====
section
/-! DEFINITION. The parameters' defaults, what a consistent choice of them is, the address map of the CPU bus space they
give, and the handler a Board's bindings have at an address (spec/00_scope.md R9; spec/20_memory.md R75; spec/30_encoding.md
R94; spec/40_dispatch.md R122). -/

namespace Sys2Proof

/-- The defaults of 00_scope.md R9 (DESIGN CHOICE of the spec, D2, D7, D13, D15, D17, D22, D34: log 1). -/
def Params.default : Params :=
  { lowLo := 0x6000, lowHi := 0x7FFF, cmdLo := 0x8000, cmdHi := 0x9FFF, dataLo := 0xA000, dataHi := 0xBFFF
    padStrobeAddr := 0x4016, padData0Addr := 0x4016, padData1Addr := 0x4017
    enBit := 0, srcBit := 7, regReset := 0x00
    btnA := 0, btnB := 1, btnSelect := 2, btnStart := 3, btnUp := 4, btnDown := 5, btnLeft := 6, btnRight := 7
    auxPos := 2, auxPort := 0, pageSize := 0x2000 }

namespace Machine

/-- `low <= a <= high`, both bounds inclusive (40_dispatch.md R122, R124). -/
def inRange (low high a : Addr) : Bool := decide (low ≤ a) && decide (a ≤ high)

/-- Two ranges, bounds inclusive, share an address. -/
def rangesMeet (lowA highA lowB highB : Addr) : Bool := decide (lowA ≤ highB) && decide (lowB ≤ highA)

/-- The low window (20_memory.md R75). -/
def inLowWindow (c : Params) (a : Addr) : Bool := inRange c.lowLo c.lowHi a
/-- The command window (20_memory.md R75). -/
def inCmdWindow (c : Params) (a : Addr) : Bool := inRange c.cmdLo c.cmdHi a
/-- The data window (20_memory.md R75). -/
def inDataWindow (c : Params) (a : Addr) : Bool := inRange c.dataLo c.dataHi a

/-- An address of one of the three windows. -/
def inWindow (c : Params) (a : Addr) : Bool := inLowWindow c a || inCmdWindow c a || inDataWindow c a

/-- The read handler of a handler, if it has one (40_dispatch.md R122). -/
def handlerRead : Handler → Option ReadHandler
  | .reads r => some r
  | .writes _ => none
  | .both r _ => some r

/-- The write handler of a handler, if it has one (40_dispatch.md R122). -/
def handlerWrite : Handler → Option WriteHandler
  | .reads _ => none
  | .writes w => some w
  | .both _ w => some w

/-- The read handler bound at an address: "some binding (low, high, h) has low <= addr <= high and h has a read handler"
(40_dispatch.md R124). -/
def findRead (bs : List Binding) (a : Addr) : Option ReadHandler :=
  bs.findSome? fun b => if inRange b.low b.high a then handlerRead b.handler else none

/-- The write handler bound at an address (40_dispatch.md R125). -/
def findWrite (bs : List Binding) (a : Addr) : Option WriteHandler :=
  bs.findSome? fun b => if inRange b.low b.high a then handlerWrite b.handler else none

end Machine

open Machine

/-- The windows are ranges a variant may declare: not inverted, no two with a common address (40_dispatch.md R122). -/
def Params.windowsApart (c : Params) : Bool :=
  decide (c.lowLo ≤ c.lowHi) && decide (c.cmdLo ≤ c.cmdHi) && decide (c.dataLo ≤ c.dataHi) &&
    !rangesMeet c.lowLo c.lowHi c.cmdLo c.cmdHi && !rangesMeet c.lowLo c.lowHi c.dataLo c.dataHi &&
    !rangesMeet c.cmdLo c.cmdHi c.dataLo c.dataHi

/-- The bits of the eight buttons, in the order of 30_encoding.md R104. -/
def Params.buttons (c : Params) : List (Fin 8) :=
  [c.btnA, c.btnB, c.btnSelect, c.btnStart, c.btnUp, c.btnDown, c.btnLeft, c.btnRight]

/-- A consistent choice of the parameters (log 30): the windows are apart (40_dispatch.md R122) and the low window's
offsets have 13 bits (20_memory.md R77); the two data ports differ (43_controller.md R191); the two
fields of register D, the eight buttons, and the serial and the auxiliary bit do not share a place (30_encoding.md R100,
R104, R103). -/
def Params.wf (c : Params) : Bool :=
  c.windowsApart && decide ((c.lowHi - c.lowLo).toNat < 0x2000) &&
    decide (c.padData0Addr ≠ c.padData1Addr) && decide (c.enBit ≠ c.srcBit) && decide c.buttons.Nodup &&
    decide (c.auxPos ≠ 0)

end Sys2Proof
end

