-- ==== Sys2Proof/Machine/State.lean ====
section
/-! DEFINITION. The state of the block and of the collaborators it drives, as plain data, and its value right after
power-on (spec/10_state.md R20 to R52; spec/20_memory.md R62, R77; INVENTORY.md lists every field). -/

namespace Sys2Proof.Machine

/-- Byte memory: (offset, byte) pairs, offsets strictly rising. An unlisted offset holds no written byte, so every listed
entry differs from what an unlisted one holds (log 8). -/
abbrev Memory := List Host.Cell

/-- Length in bytes of the collaborator's work RAM (20_memory.md R77: "`wram` is 0x2000 bytes"). -/
def ramSize : Nat := 0x2000

/-- The canonical form: offsets at least `lo`, strictly rising, inside the work RAM. -/
def Memory.wfFrom : Nat → Memory → Bool
  | _, [] => true
  | lo, (i, _) :: rest => decide (lo ≤ i) && decide (i < ramSize) && Memory.wfFrom (i + 1) rest

/-- The canonical form of the work RAM. -/
def Memory.wf (m : Memory) : Bool := Memory.wfFrom 0 m

/-- The Timer's fields (10_state.md R26, R27). -/
structure Timer where
  enabled : Bool
  src : Bool
  count : Count
  deriving DecidableEq, Repr

/-- The supported board variants (00_scope.md R3; 40_dispatch.md R121: "the only supported selector in this spec is
`VARIANT_REFERENCE`"). -/
inductive Variant where
  | reference
  deriving DecidableEq, Repr

/-- The active Board (10_state.md R20 to R31): what it was constructed from, its bindings, and the registers it
exclusively owns. -/
structure Board where
  ctx : Context
  variant : Variant
  bindings : List Binding
  latch : BitVec 4
  regs : Vector Byte 13
  timer : Timer
  irqReq : Bool
  deriving DecidableEq, Repr

/-- One controller port (10_state.md R33 to R38), its host-set filter mode (R40) and its input lines (R41). -/
structure Port where
  strobe : Bool
  sr : Byte
  state : Byte
  prevRaw : Byte
  hmask : Byte
  vmask : Byte
  mode : FilterMode
  buttonsIn : Byte
  auxIn : Bool
  deriving DecidableEq, Repr

/-- Why a chunk is malformed (60_exceptions.md R251). -/
inductive FormatFlaw where
  | truncated
  | duplicateTag
  deriving DecidableEq, Repr

/-- The two errors of the block, each with the value it records (60_exceptions.md R250, R251, R252). They are returned to
the caller, change no state and stop nothing (R254), so they are results and no `Fault` (log 13). -/
inductive Error where
  | unsupportedVariant (v : VariantSelector)
  | formatError (tag : Tag) (flaw : FormatFlaw)
  deriving DecidableEq, Repr

/-- What an operation returns to the agent that applied it (00_scope.md R16; 60_exceptions.md R254). -/
inductive Result where
  | none
  | data (v : Byte)
  | fired (b : Bool)
  | snapshot (snap : Snapshot)
  | error (e : Error)
  deriving DecidableEq, Repr

/-- A call into the memory-bus collaborator (20_memory.md R62). -/
inductive CollCall where
  | bankSelect (i : RegIx) (v : Byte)
  | lowRead (a : Addr)
  | lowWrite (a : Addr) (v : Byte)
  deriving DecidableEq, Repr

/-- The machine. `params` are the parameters the block is an instance of, arguments of every operation and changed by none
(00_scope.md R9, R17; log 1); `board` is absent before the first construction and after a destroy (10_state.md R20); `construction`
holds the ranges a construction in progress has declared (40_dispatch.md R122); `ports` are the `NPORTS` controller ports;
`irqLine` is the level last driven on the CPU's interrupt line (41_timer.md R147); `wram` and `banks` belong to the
memory-bus collaborator (20_memory.md R62, R77); `inCycle`, `trace`, `result` and `calls` are the model's own
(logs 11, 14, 18). `trace` is the one timeline of the one bus master, and no field is a fence, a reservation, a lock or a
second agent's pending work (20_memory.md R80; log 28). -/
structure State where
  params : Params
  board : Option Board
  construction : Option (List Binding)
  ports : List Port
  aux : Bool
  irqLine : Bool
  wram : Memory
  banks : Vector Byte 13
  inCycle : Bool
  trace : List TraceItem
  result : Result
  calls : List CollCall
  deriving DecidableEq, Repr

/-- Why the machine stops with a fault: nothing stops it. "the emulated hardware has no bus-fault concept"
(60_exceptions.md R253), no operation is stuck, and the two errors of the block are results (R254; log 13). The type is
empty; nobody raises it, and that is safe. -/
inductive Fault
  deriving DecidableEq, Repr

/-- Why an operation is turned away: the inputs the spec says a model refuses because they are outside the block's
contract. -/
inductive Refusal where
  /-- Raised by an arm of `exec` whose instruction has no meaning yet; safe. -/
  | notModelled (mnemonic : String)
  /-- Raised by `step`: the trace item is not an operation, "a model refuses them" (30_encoding.md R111); safe. -/
  | notAnOperation (why : DecodeReject)
  /-- Raised by BF, PW, PR, IN, MODE on a port at or above `NPORTS` (20_memory.md R65, 43_controller.md R217); safe. -/
  | portAbsent (p : PortIx)
  /-- Raised by NEW while a Board is active (40_dispatch.md R121); safe. -/
  | boardActive
  /-- Raised by SAVE and LOAD between a bus transaction and its cycle's pulse (70_reset_and_hazards.md R290); safe. -/
  | insideCycle
  /-- Raised by RANGE when no construction is in progress: "`RANGE` cannot be applied later" (40_dispatch.md R122);
  safe. -/
  | noConstruction
  /-- Raised by RANGE and by NEW for a range that is inverted or overlaps another of its direction (40_dispatch.md R122);
  safe. -/
  | illFormedRange
  deriving DecidableEq, Repr

/-- A controller port after reset, no host and no input layer having touched it (10_state.md R47; the lines: log 23). -/
def Port.fresh : Port :=
  { strobe := false, sr := 0xFF, state := 0x00, prevRaw := 0x00, hmask := 0x00, vmask := 0x00, mode := .off,
    buttonsIn := 0x00, auxIn := false }

/-- A machine with the given parameters and number of ports right after power-on: no Board has been constructed
(10_state.md R20; log 5), the ports at their reset values (R47), the interrupt line released (R45), nothing written to the
work RAM, nothing pending. -/
def State.resetWith (c : Params) (nports : Nat) : State :=
  { params := c
    board := none
    construction := none
    ports := List.replicate nports Port.fresh
    aux := false
    irqLine := false
    wram := []
    banks := #v[0, 0, 0, 0, 0, 0, 0, 0, 0, 0, 0, 0, 0]
    inCycle := false
    trace := []
    result := .none
    calls := [] }

/-- The machine right after power-on, with the default parameters (log 1) and four ports (log 4). -/
def State.reset : State := State.resetWith Params.default 4

end Sys2Proof.Machine
end

