-- ==== Sys2Proof/Machine/Operands.lean ====
section
/-! DEFINITION. Operand assembly: the fields of every byte format (spec/30_encoding.md R95 to R105, R109), at the bit
positions the parameters give (spec/00_scope.md R9). "There are no immediates. Every operand is a whole byte or a slice of
one, taken unsigned" (R109). -/

namespace Sys2Proof.Machine

/-- A 16-bit count from its two bytes, `{F-byte, E-byte}` (30_encoding.md R109, 20_memory.md R68). -/
def countOf (high low : Byte) : Count := high ++ low

/-- `timer.count[7:0]`, the register-E byte (30_encoding.md R101). -/
def countLow (c : Count) : Byte := c.extractLsb' 0 8

/-- `timer.count[15:8]`, the register-F byte (30_encoding.md R101). -/
def countHigh (c : Count) : Byte := c.extractLsb' 8 8

/-- `REGSEL` = `v[3:0]` of a command byte; bits 7:4 are ignored (30_encoding.md R95). -/
def regSel (v : Byte) : BitVec 4 := v.extractLsb' 0 4

/-- `STROBE` = `v[0]` of a strobe byte; bits 7:1 are ignored (30_encoding.md R102). -/
def strobeBit (v : Byte) : Bool := v.getLsbD 0

/-- `EN` = bit `D_EN_BIT` of a register-D byte (30_encoding.md R100). -/
def irqEnBit (c : Params) (v : Byte) : Bool := v.getLsbD c.enBit

/-- `SRC` = bit `D_SRC_BIT` of a register-D byte (30_encoding.md R100). -/
def irqSrcBit (c : Params) (v : Byte) : Bool := v.getLsbD c.srcBit

/-- `RAM_EN` = bit 7 of register 8 (30_encoding.md R98). -/
def ramEnBit (v : Byte) : Bool := v.getLsbD 7

/-- `RAM_SEL` = bit 6 of register 8 (30_encoding.md R98). -/
def ramSelBit (v : Byte) : Bool := v.getLsbD 6

/-- `PAGE` = bits 5:0 of register 8 (30_encoding.md R98). -/
def pageField (v : Byte) : BitVec 6 := v.extractLsb' 0 6

/-- What the low window shows (20_memory.md R77). -/
inductive LowMode where
  | rom (page : BitVec 6)
  | ram
  | openBus
  deriving DecidableEq, Repr

/-- `LowMode(r8)` (20_memory.md R77). -/
def lowMode (r8 : Byte) : LowMode :=
  if ramSelBit r8 then (if ramEnBit r8 then .ram else .openBus) else .rom (pageField r8)

/-- `off = a - LOW_LO`, 13 bits (20_memory.md R77). -/
def lowOffset (c : Params) (a : Addr) : Nat := ((a - c.lowLo).extractLsb' 0 13).toNat

/-- The mask of one button (30_encoding.md R104). -/
def btnMask (i : Fin 8) : Byte := 1#8 <<< i.val

/-- `BTN_UP` (30_encoding.md R104). -/
def btnUp (c : Params) : Byte := btnMask c.btnUp
/-- `BTN_DOWN` (30_encoding.md R104). -/
def btnDown (c : Params) : Byte := btnMask c.btnDown
/-- `BTN_LEFT` (30_encoding.md R104). -/
def btnLeft (c : Params) : Byte := btnMask c.btnLeft
/-- `BTN_RIGHT` (30_encoding.md R104). -/
def btnRight (c : Params) : Byte := btnMask c.btnRight
/-- "The four non-direction buttons": A, B, Select, Start, which at the defaults are the 0x0F of 43_controller.md R199
(log 30). -/
def plainButtons (c : Params) : Byte :=
  btnMask c.btnA ||| btnMask c.btnB ||| btnMask c.btnSelect ||| btnMask c.btnStart

/-- `zext_8` of one bit. -/
def bitByte (b : Bool) : Byte := if b then 1 else 0

/-- The byte a data-port read returns: `D0` in bit 0, `AUX` in bit `AUX_POS`, every other bit 0 (30_encoding.md R103;
undriven bits: log 27). -/
def padByte (c : Params) (d0 aux : Bool) : Byte := bitByte d0 ||| (bitByte aux <<< c.auxPos.val)

end Sys2Proof.Machine
end

