-- ==== Sys2Proof/Machine/Ops.lean ====
section
/-! DEFINITION. The named operations over the state that the meanings are written with: one setter per field, the work
RAM, the register file and the collaborator it is told to, the bindings, raising an error. -/

namespace Sys2Proof.Machine

/-- What every meaning answers. -/
abbrev Answer := Host.Outcome State Fault Refusal

/-! ### One setter per field -/

/-- The outputs of the previous operation are gone when an operation begins (log 18). -/
def State.start (s : State) : State := { s with result := .none, calls := [] }

def State.answer (r : Result) (s : State) : State := { s with result := r }
def State.setBoard (b : Option Board) (s : State) : State := { s with board := b }
def State.setConstruction (c : Option (List Binding)) (s : State) : State := { s with construction := c }
def State.setPorts (ps : List Port) (s : State) : State := { s with ports := ps }
def State.setAux (b : Bool) (s : State) : State := { s with aux := b }
def State.setWram (m : Memory) (s : State) : State := { s with wram := m }
def State.setInCycle (b : Bool) (s : State) : State := { s with inCycle := b }
def State.setTrace (t : List TraceItem) (s : State) : State := { s with trace := t }

/-- `irq_line(b)`: the call of the CPU's interrupt-line setter with level `b` (41_timer.md R147). -/
def State.irqLineCall (b : Bool) (s : State) : State := { s with irqLine := b }

/-- A call into the memory-bus collaborator, appended to the operation's calls (20_memory.md R62). -/
def State.logCall (c : CollCall) (s : State) : State := { s with calls := s.calls ++ [c] }

/-- `Coll.BankSelect(i, v)`: the collaborator is told that register `i` holds `v` (20_memory.md R62). -/
def State.tellBank (i : RegIx) (v : Byte) (s : State) : State :=
  { s with banks := s.banks.set i v, calls := s.calls ++ [.bankSelect i v] }

/-- The calls `Coll.BankSelect(i, reg[i])` for `i` = 0x0 .. 0xC in ascending order (10_state.md R46, 44_snapshot.md
R233). -/
def bankCalls (regs : Vector Byte 13) : List CollCall :=
  (List.finRange 13).map fun i => .bankSelect i regs[i]

/-- The collaborator is told of every register, in ascending order (10_state.md R46). -/
def State.tellAllBanks (regs : Vector Byte 13) (s : State) : State :=
  { s with banks := regs, calls := s.calls ++ bankCalls regs }

/-! ### Errors

The block takes no trap and returns from none (60_exceptions.md R261, R263); what it has is an error result. -/

/-- `raise E(info)`: "the operation ends, returns the error `E` with `info` to the agent that applied it, and no state
element of the block has changed" (60_exceptions.md R254, 00_scope.md R13). -/
def raise (e : Error) (s : State) : Answer := .next (s.start.answer (.error e))

/-! ### Work RAM -/

/-- The byte written at an offset, if one was. -/
def Memory.read : Memory → Nat → Option Byte
  | [], _ => none
  | (i, b) :: rest, k => if k = i then some b else Memory.read rest k

/-- Write the byte at an offset, keeping the offsets strictly rising. -/
def Memory.write : Memory → Nat → Byte → Memory
  | [], k, v => [(k, v)]
  | (i, b) :: rest, k, v =>
    if k < i then (k, v) :: (i, b) :: rest
    else if k = i then (k, v) :: rest
    else (i, b) :: Memory.write rest k v

/-- `wram[off]`: a byte nothing has written has no value given by any source: a free value (20_memory.md R77,
93_implementation_defined.md U11; log 8). -/
def ramByte (m : Memory) (off : Nat) : Byte := (m.read off).getD (Config.ramPowerOn off)

/-! ### Program ROM -/

/-- The byte of a ROM at an index below its length. -/
def romByte (r : Rom) (i : Nat) : Byte := (Memory.read r.cells i).getD 0x00

/-- `NPAGES` = length(programROM)/`PAGE_SIZE` (00_scope.md R9). DESIGN CHOICE: the spec states no rounding for a ROM that is
no whole number of pages; the model counts the whole pages, so the bytes past the last whole page are in no page (log 31). -/
def numPages (c : Params) (r : Rom) : Nat := r.size / c.pageSize

/-- `(pg mod NPAGES) * PAGE_SIZE + off` (20_memory.md R77). -/
def romIndex (c : Params) (r : Rom) (page : BitVec 6) (off : Nat) : Nat :=
  (page.toNat % numPages c r) * c.pageSize + off

/-- `programROM[((pg mod NPAGES) * PAGE_SIZE) + off]` (20_memory.md R77). With `NPAGES` = 0, or past the end of the ROM, the
rule states no result: a free value (log 9). -/
def romPageByte (c : Params) (r : Rom) (page : BitVec 6) (off : Nat) : Byte :=
  if numPages c r ≠ 0 ∧ romIndex c r page off < r.size then romByte r (romIndex c r page off)
  else Config.romAbsent page.toNat off

/-! ### The register file and the bindings -/

/-- `reg[i]` (10_state.md R22). -/
def Board.reg (b : Board) (i : RegIx) : Byte := b.regs[i]

/-- `reg[i] <- v` (10_state.md R22). -/
def Board.setReg (i : RegIx) (v : Byte) (b : Board) : Board := { b with regs := b.regs.set i v }

/-- Two handlers share a direction. -/
def handlersClash (h k : Handler) : Bool :=
  ((handlerRead h).isSome && (handlerRead k).isSome) || ((handlerWrite h).isSome && (handlerWrite k).isSome)

/-- `registerRange`: both requirements of 40_dispatch.md R122, or no new bindings. -/
def bindRange (bs : List Binding) (low high : Addr) (h : Handler) : Option (List Binding) :=
  if decide (low ≤ high) && bs.all fun b => !(handlersClash b.handler h && rangesMeet b.low b.high low high) then
    some (bs ++ [⟨low, high, h⟩])
  else none

/-! ### The default memory-bus collaborator (20_memory.md R77; log 21) -/

/-- `Coll.LowRead(a)`. -/
def collLowRead (c : Params) (b : Board) (wram : Memory) (a : Addr) : Byte :=
  match lowMode (b.reg 8) with
  | .rom page => romPageByte c b.ctx.programROM page (lowOffset c a)
  | .ram => if b.ctx.ramPresenceFlags.workRam then ramByte wram (lowOffset c a) else Config.openBus
  | .openBus => Config.openBus

/-- `Coll.LowWrite(a, v)`. -/
def collLowWrite (c : Params) (b : Board) (a : Addr) (v : Byte) (wram : Memory) : Memory :=
  match lowMode (b.reg 8) with
  | .ram => if b.ctx.ramPresenceFlags.workRam then wram.write (lowOffset c a) v else wram
  | .rom _ => wram
  | .openBus => wram

/-! ### Bus transactions -/

/-- Every bus transaction begins a cycle that only a clock pulse ends (20_memory.md R79, 70_reset_and_hazards.md R290;
log 14). -/
def State.beginBus (s : State) : State := s.start.setInCycle true

/-- A read that nothing claims returns `OPEN_BUS` and changes no state (40_dispatch.md R126). -/
def unmappedRead (s : State) : State := s.beginBus.answer (.data Config.openBus)

/-- A write that nothing claims changes no state (40_dispatch.md R127). -/
def unmappedWrite (s : State) : State := s.beginBus

/-- A write to an address at which the active Board has bound the handler `h` has the handler's effect; with no Board
active, or no such binding, it is unmapped (40_dispatch.md R125, R132). -/
def claimedWrite (h : WriteHandler) (a : Addr) (effect : Board → State → State) (s : State) : State :=
  match s.board with
  | some b => if findWrite b.bindings a = some h then effect b s.beginBus else unmappedWrite s
  | none => unmappedWrite s

/-- A read from an address at which the active Board has bound the handler `h`; otherwise unmapped (40_dispatch.md R124,
R132). -/
def claimedRead (h : ReadHandler) (a : Addr) (effect : Board → State → State) (s : State) : State :=
  match s.board with
  | some b => if findRead b.bindings a = some h then effect b s.beginBus else unmappedRead s
  | none => unmappedRead s

/-! ### Controller ports -/

/-- Apply an operation to a port that is present; a port at or above `NPORTS` is refused (20_memory.md R65). -/
def withPort (p : PortIx) (effect : Port → State → State) (s : State) : Answer :=
  match s.ports[p.val]? with
  | some q => .next (effect q s.start)
  | none => .refused (.portAbsent p)

/-- Replace the state of one port. -/
def State.setPort (p : PortIx) (q : Port) (s : State) : State := s.setPorts (s.ports.set p.val q)

/-- The controller part of a reset, the same for both kinds (10_state.md R47): `FILTER_MODE` and the input lines stay
(70_reset_and_hazards.md R283). -/
def Port.resetPort (q : Port) : Port :=
  { q with strobe := false, sr := 0xFF, state := 0x00, prevRaw := 0x00, hmask := 0x00, vmask := 0x00 }

/-- "every port p: controller state <- 10_state.md rule R47" (40_dispatch.md R128, R129). -/
def State.resetPorts (s : State) : State := (s.setPorts (s.ports.map Port.resetPort)).setAux false

end Sys2Proof.Machine
end

