-- ==== Sys2Proof/Machine/Flags.lean ====
section
/-! DEFINITION. The single-bit status state of the Board: `irq_req` with the line that follows it, `timer.enabled` and
`timer.src` (spec/10_state.md R42; spec/42_reference_board.md R179; spec/41_timer.md R147). The block has no arithmetic
condition codes. -/

namespace Sys2Proof.Machine

/-- `irq_req` of the active Board; 0 with no Board active (40_dispatch.md R132). -/
def State.irqReq (s : State) : Bool :=
  match s.board with
  | some b => b.irqReq
  | none => false

/-- `irq_req <- v`. -/
def Board.setIrqReq (v : Bool) (b : Board) : Board := { b with irqReq := v }

/-- `irq_req <- v ; irq_line(v)`, in the same operation, on the Board `b` (41_timer.md R147). -/
def driveIrq (v : Bool) (b : Board) (s : State) : State := (s.setBoard (some (b.setIrqReq v))).irqLineCall v

/-- The timer fields a register-D byte writes: `EN` and `SRC`; the count stays (42_reference_board.md R169). -/
def Timer.control (c : Params) (v : Byte) (t : Timer) : Timer :=
  { t with enabled := irqEnBit c v, src := irqSrcBit c v }

/-- `timer.count[7:0] <- v` (42_reference_board.md R173). -/
def Timer.loadLow (v : Byte) (t : Timer) : Timer := { t with count := countOf (countHigh t.count) v }

/-- `timer.count[15:8] <- v` (42_reference_board.md R174). -/
def Timer.loadHigh (v : Byte) (t : Timer) : Timer := { t with count := countOf v (countLow t.count) }

def Board.setTimer (t : Timer) (b : Board) : Board := { b with timer := t }
def Board.setLatch (l : BitVec 4) (b : Board) : Board := { b with latch := l }

end Sys2Proof.Machine
end

