-- ==== Sys2Proof/Machine/Variants.lean ====
section
/-! DEFINITION. The closed capability set through which the framework knows a Board, and the reference board's
(spec/40_dispatch.md R120; spec/41_timer.md R142, R144; spec/42_reference_board.md R155, R157, R175, R178;
spec/44_snapshot.md R234, R235, R237). -/

namespace Sys2Proof.Machine

/-- The counting policy, "a small capability `{reset(hard), clock() -> bool}` supplied per variant" (41_timer.md R142):
it reads and writes the Timer's fields and nothing else. -/
structure CountingPolicy where
  reset : Bool → Timer → Timer
  clock : Timer → Timer × Bool

/-- What a board chunk carries (10_state.md R52). -/
structure BoardImage where
  latch : BitVec 4
  regs : Vector Byte 13
  timer : Timer
  irqReq : Bool
  deriving DecidableEq, Repr

/-- The capability set `{reset, busRead, busWrite, sync, save, load}` with the declared ranges and the counting policy
(40_dispatch.md R120, R122; 41_timer.md R142). -/
structure Capabilities where
  ranges : List Binding
  policy : CountingPolicy
  reset : Bool → Board → Board
  busRead : ReadHandler → Addr → Board → State → State
  busWrite : WriteHandler → Addr → Byte → Board → State → State
  sync : SyncEvent → List Port → Bool → Board → Board
  save : Board → List Byte
  load : List Byte → Option BoardImage

/-! ### The reference board -/

/-- The three ranges the reference board declares (42_reference_board.md R155). -/
def referenceRanges (c : Params) : List Binding :=
  [⟨c.lowLo, c.lowHi, .both .lowPage .lowRam⟩, ⟨c.cmdLo, c.cmdHi, .writes .commandPort⟩,
   ⟨c.dataLo, c.dataHi, .writes .dataPort⟩]

/-- The timer after a hard reset: "clears count and enabled flag" (41_timer.md R144, 10_state.md R45). -/
def Timer.cleared : Timer := { enabled := false, src := false, count := 0x0000 }

/-- Reset of the reference policy: hard clears, soft preserves (41_timer.md R144). -/
def referenceTimerReset (hard : Bool) (t : Timer) : Timer := if hard then Timer.cleared else t

/-- The counting policy of the reference board: while enabled with its source on, one down; it fires on the step from 0
to 0xFFFF (42_reference_board.md R175). -/
def referenceClock (t : Timer) : Timer × Bool :=
  if t.enabled && t.src then ({ t with count := t.count - 1 }, t.count == 0) else (t, false)

def referencePolicy : CountingPolicy := { reset := referenceTimerReset, clock := referenceClock }

/-- The 13 stored registers at `REG_RESET` (10_state.md R45). -/
def regsReset (c : Params) : Vector Byte 13 := Vector.replicate 13 c.regReset

/-- Board state after reset (10_state.md R45): hard, every register at its default; soft, all preserved but the request. -/
def referenceReset (c : Params) (hard : Bool) (b : Board) : Board :=
  if hard then { b with latch := 0x0, regs := regsReset c, timer := referencePolicy.reset true b.timer, irqReq := false }
  else { b with timer := referencePolicy.reset false b.timer, irqReq := false }

/-- `reg[i] <- v ; Coll.BankSelect(i, v)` (42_reference_board.md R158 to R168, R176, R177). -/
def storeReg (i : RegIx) (v : Byte) (b : Board) (s : State) : State :=
  (s.setBoard (some (b.setReg i v))).tellBank i v

/-- The command port: `latch <- v[3:0]` (42_reference_board.md R156). -/
def storeLatch (v : Byte) (b : Board) (s : State) : State := s.setBoard (some (b.setLatch (regSel v)))

/-- Register D: `EN` and `SRC` are copied; `EN` = 0 releases the request (42_reference_board.md R169). -/
def storeIrqControl (v : Byte) (b : Board) (s : State) : State :=
  let b' := b.setTimer (b.timer.control s.params v)
  if irqEnBit s.params v then s.setBoard (some b') else driveIrq false b' s

/-- Register E: the low byte of the count; the request is released (42_reference_board.md R173). -/
def storeCountLow (v : Byte) (b : Board) (s : State) : State :=
  driveIrq false (b.setTimer (b.timer.loadLow v)) s

/-- Register F: the high byte of the count; the request is released (42_reference_board.md R174). -/
def storeCountHigh (v : Byte) (b : Board) (s : State) : State :=
  driveIrq false (b.setTimer (b.timer.loadHigh v)) s

/-- The data port: the register the latch selects (42_reference_board.md R157). -/
def storeLatched (v : Byte) (b : Board) (s : State) : State :=
  match b.latch.toNat with
  | 0xD => storeIrqControl v b s
  | 0xE => storeCountLow v b s
  | 0xF => storeCountHigh v b s
  | n => if h : n < 13 then storeReg ⟨n, h⟩ v b s else s

/-- The low window's write path: the collaborator's RAM-bank logic (42_reference_board.md R171). -/
def writeLowWindow (a : Addr) (v : Byte) (b : Board) (s : State) : State :=
  (s.setWram (collLowWrite s.params b a v s.wram)).logCall (.lowWrite a v)

/-- The low window's read path: whatever the collaborator exposes there (42_reference_board.md R170). -/
def readLowWindow (a : Addr) (b : Board) (s : State) : State :=
  (s.answer (.data (collLowRead s.params b s.wram a))).logCall (.lowRead a)

/-- `dispatchRead`'s handlers of the reference board (42_reference_board.md R155). -/
def referenceBusRead : ReadHandler → Addr → Board → State → State
  | .lowPage, a, b, s => readLowWindow a b s

/-- `dispatchWrite`'s handlers of the reference board (42_reference_board.md R155). -/
def referenceBusWrite : WriteHandler → Addr → Byte → Board → State → State
  | .lowRam, a, v, b, s => writeLowWindow a v b s
  | .commandPort, _, v, b, s => storeLatch v b s
  | .dataPort, _, v, b, s => storeLatched v b s

/-- `sync` of the reference board is a no-op for every event, whatever the controller state it may consult
(42_reference_board.md R178, 40_dispatch.md R130). -/
def referenceSync (_ev : SyncEvent) (_ports : List Port) (_aux : Bool) (b : Board) : Board := b

/-- The register-D image of the timer bits: "Byte 14 has the layout of register D" (44_snapshot.md R235; log 30). -/
def timerBits (c : Params) (t : Timer) : Byte :=
  (bitByte t.enabled <<< c.enBit.val) ||| (bitByte t.src <<< c.srcBit.val)

/-- The payload of the board chunk, 18 bytes (44_snapshot.md R235). -/
def referenceSave (c : Params) (b : Board) : List Byte :=
  [b.latch.setWidth 8] ++ b.regs.toList ++
    [timerBits c b.timer, countLow b.timer.count, countHigh b.timer.count, bitByte b.irqReq]

/-- The byte at a place of a payload known to be long enough. -/
def payloadByte (p : List Byte) (i : Nat) : Byte := p.getD i 0

/-- `ParseBoard`: a payload shorter than 18 bytes is truncated; reserved bits and every byte beyond the 18th are ignored
(44_snapshot.md R235, R237). -/
def referenceLoad (c : Params) (p : List Byte) : Option BoardImage :=
  if p.length < 18 then none
  else some
    { latch := (payloadByte p 0).extractLsb' 0 4
      regs := #v[payloadByte p 1, payloadByte p 2, payloadByte p 3, payloadByte p 4, payloadByte p 5, payloadByte p 6,
        payloadByte p 7, payloadByte p 8, payloadByte p 9, payloadByte p 10, payloadByte p 11, payloadByte p 12,
        payloadByte p 13]
      timer := { enabled := irqEnBit c (payloadByte p 14), src := irqSrcBit c (payloadByte p 14),
                 count := countOf (payloadByte p 16) (payloadByte p 15) }
      irqReq := (payloadByte p 17).getLsbD 0 }

/-- The reference board's capability set, for the parameters of the block. -/
def referenceCapabilities (c : Params) : Capabilities :=
  { ranges := referenceRanges c
    policy := referencePolicy
    reset := referenceReset c
    busRead := referenceBusRead
    busWrite := referenceBusWrite
    sync := referenceSync
    save := referenceSave c
    load := referenceLoad c }

/-! ### Selection -/

/-- The variant a selector names; only `VARIANT_REFERENCE` is supported (40_dispatch.md R121). -/
def supported : VariantSelector → Option Variant
  | .reference => some .reference
  | .other _ => none

/-- The capability record of a variant (40_dispatch.md R120). -/
def Variant.caps (c : Params) : Variant → Capabilities
  | .reference => referenceCapabilities c

end Sys2Proof.Machine
end

