-- ==== Sys2Proof/Machine/Bus.lean ====
section
/-! DEFINITION. The meanings of the low-window rows, of reads in the write-only windows and of unmapped accesses
(spec/42_reference_board.md R170 to R172; spec/40_dispatch.md R126, R127). -/

namespace Sys2Proof.Machine

/-- RD.LOW (42_reference_board.md R170). -/
def execRdLow (a : Addr) (s : State) : Answer := .next (claimedRead .lowPage a (readLowWindow a) s)

/-- WR.LOW (42_reference_board.md R171). -/
def execWrLow (a : Addr) (v : Byte) (s : State) : Answer := .next (claimedWrite .lowRam a (writeLowWindow a v) s)

/-- RD.CMDDATA: the reference board binds no read handler there, so the read is unmapped (42_reference_board.md R172). -/
def execRdCmdData (_a : Addr) (s : State) : Answer := .next (unmappedRead s)

/-- RD.UNMAPPED (40_dispatch.md R126). -/
def execRdUnmapped (_a : Addr) (s : State) : Answer := .next (unmappedRead s)

/-- WR.UNMAPPED (40_dispatch.md R127). -/
def execWrUnmapped (_a : Addr) (_v : Byte) (s : State) : Answer := .next (unmappedWrite s)

end Sys2Proof.Machine
end

