-- ==== Sys2Proof/Machine/Control.lean ====
section
/-! DEFINITION. The framework's own operations: the clock pulse, reset, sync, construction and destruction
(spec/41_timer.md R143, R144; spec/40_dispatch.md R121 to R123, R128 to R130). -/

namespace Sys2Proof.Machine

/-! ### The clock pulse -/

/-- `irq_req <- 1 ; irq_line(1)` when the policy fired; nothing clears it here (41_timer.md R143). -/
def surfaceFired (fired : Bool) (b : Board) (s : State) : State :=
  if fired then driveIrq true b s else s.setBoard (some b)

/-- CLK: the engine calls the variant's policy once and surfaces its result (41_timer.md R141, R143). The pulse ends the
cycle (70_reset_and_hazards.md R290; log 14). With no Board active it changes nothing and is not fired (40_dispatch.md
R132). -/
def execClk (s : State) : Answer :=
  let s1 := s.start.setInCycle false
  match s.board with
  | none => .next (s1.answer (.fired false))
  | some b =>
    let r := (b.variant.caps s.params).policy.clock b.timer
    .next ((surfaceFired r.2 (b.setTimer r.1) s1).answer (.fired r.2))

/-! ### Reset -/

/-- The Board's part of a reset: its registers, and the line released (10_state.md R45). -/
def boardReset (hard : Bool) (b : Board) (s : State) : State :=
  (s.setBoard (some ((b.variant.caps s.params).reset hard b))).irqLineCall false

/-- The Board's part of a hard reset: the collaborator is told of every register too (10_state.md R46). -/
def boardHardReset (b : Board) (s : State) : State :=
  (boardReset true b s).tellAllBanks ((b.variant.caps s.params).reset true b).regs

/-- RST.SOFT (40_dispatch.md R129). -/
def execRstSoft (s : State) : Answer :=
  match s.board with
  | some b => .next (boardReset false b s.start).resetPorts
  | none => .next s.start.resetPorts

/-- RST.HARD (40_dispatch.md R128). What follows is a function of the trace alone (R134), so no cycle is left open
(log 14). -/
def execRstHard (s : State) : Answer :=
  let s1 := s.start.setInCycle false
  match s.board with
  | some b => .next (boardHardReset b s1).resetPorts
  | none => .next s1.resetPorts

/-! ### Sync -/

/-- `board.sync(ev, peripheralState)`; with no Board active a no-op, and never a change of controller state
(40_dispatch.md R130). -/
def syncBoard (ev : SyncEvent) (s : State) : State :=
  s.start.setBoard (s.board.map fun b => (b.variant.caps s.params).sync ev s.ports s.aux b)

/-- SYNC.FRAME_START (40_dispatch.md R130). -/
def execSyncFrameStart (s : State) : Answer := .next (syncBoard .frameStart s)
/-- SYNC.FRAME_END (40_dispatch.md R130). -/
def execSyncFrameEnd (s : State) : Answer := .next (syncBoard .frameEnd s)
/-- SYNC.ADDR_EDGE (40_dispatch.md R130). -/
def execSyncAddrEdge (s : State) : Answer := .next (syncBoard .addrEdge s)
/-- SYNC.STROBE_EDGE (40_dispatch.md R130). -/
def execSyncStrobeEdge (s : State) : Answer := .next (syncBoard .strobeEdge s)

/-! ### Construction and destruction -/

/-- RANGE: a construction in progress declares a range (40_dispatch.md R122). -/
def execRange (low high : Addr) (h : Handler) (s : State) : Answer :=
  match s.construction with
  | none => .refused .noConstruction
  | some bs =>
    match bindRange bs low high h with
    | some bs' => .next (s.start.setConstruction (some bs'))
    | none => .refused .illFormedRange

/-- Every range a variant declares, bound in order, or nothing when one is ill-formed (40_dispatch.md R122). -/
def bindAll : List Binding → List Binding → Option (List Binding)
  | bs, [] => some bs
  | bs, r :: rest =>
    match bindRange bs r.low r.high r.handler with
    | some bs' => bindAll bs' rest
    | none => none

/-- The Board a construction gives: the variant's capabilities over the bindings it declared, in the hard-reset state
(40_dispatch.md R121, 10_state.md R45). The registers before that reset are of no account. -/
def newBoard (c : Params) (ctx : Context) (v : Variant) (bs : List Binding) : Board :=
  (v.caps c).reset true
    { ctx := ctx, variant := v, bindings := bs, latch := 0, regs := regsReset c, timer := Timer.cleared, irqReq := false }

/-- The constructed Board becomes active, the construction is over, the collaborator is told of every register
(40_dispatch.md R121, 10_state.md R46) and the line is low (70_reset_and_hazards.md R285; log 26). -/
def activate (b : Board) (s : State) : State :=
  (((s.setBoard (some b)).setConstruction none).irqLineCall false).tellAllBanks b.regs

/-- NEW (40_dispatch.md R121). -/
def execNew (ctx : Context) (s : State) : Answer :=
  match s.board with
  | some _ => .refused .boardActive
  | none =>
    match supported ctx.variantSelector with
    | none => raise (.unsupportedVariant ctx.variantSelector) s
    | some v =>
      match bindAll [] (v.caps s.params).ranges with
      | none => .refused .illFormedRange
      | some bs => .next (activate (newBoard s.params ctx v bs) s.start)

/-- DEL: `irq_req <- 0 ; irq_line(0)`, no Board; with none active a no-op (40_dispatch.md R123). -/
def execDel (s : State) : Answer :=
  match s.board with
  | none => .next s.start
  | some b => .next ((driveIrq false b s.start).setBoard none)

end Sys2Proof.Machine
end

