-- ==== Sys2Proof/Machine/Filter.lean ====
section
/-! DEFINITION. The direction-conflict filter (spec/43_controller.md R199 to R210; DESIGN CHOICE of the spec, D20: log 1). -/

namespace Sys2Proof.Machine

/-- `x` is exactly one of the two directions of an axis (43_controller.md R200). -/
def isSingle (A B x : Byte) : Bool := x == A || x == B

/-- `Axis(mode, raw, prev, m, A, B)`: the axis part of the filtered mask and the new resolution mask
(43_controller.md R200 to R207). -/
def axis (mode : FilterMode) (raw prev m A B : Byte) : Byte × Byte :=
  let cur := raw &&& (A ||| B)
  let old := prev &&& (A ||| B)
  let edge := cur &&& ~~~old
  let both := cur == (A ||| B)
  if cur == 0 then (0, 0)
  else match mode with
    | .off => (cur, 0)
    | .neutral => if both then (0, 0) else (cur, 0)
    | .firstPress =>
      if both then
        if m != 0 then (m, m)
        else if isSingle A B (cur &&& ~~~edge) then (cur &&& ~~~edge, cur &&& ~~~edge)
        else (0, 0)
      else (cur, cur)
    | .latestPress =>
      if both then (if isSingle A B edge then (edge, edge) else (m, m))
      else (cur, cur)
    | .firstRepress =>
      if both then
        if m != 0 then (m, m)
        else if isSingle A B edge then (edge, edge)
        else (0, 0)
      else if cur == m || edge &&& cur != 0 then (cur, cur)
      else (0, 0)
    | .latestRepress =>
      if both then (if isSingle A B edge then (edge, edge) else (m, m))
      else if cur == m || edge &&& cur != 0 then (cur, cur)
      else (0, 0)

/-- What the filter gives: the filtered mask and both new resolution masks (43_controller.md R199). -/
structure Filtered where
  out : Byte
  hmask : Byte
  vmask : Byte
  deriving DecidableEq, Repr

/-- `Filter(mode, raw, prev, h, v)`: both axes independently, the four other buttons unchanged (43_controller.md R199). -/
def filterMask (c : Params) (mode : FilterMode) (raw prev h v : Byte) : Filtered :=
  let ah := axis mode raw prev h (btnLeft c) (btnRight c)
  let av := axis mode raw prev v (btnUp c) (btnDown c)
  { out := (raw &&& plainButtons c) ||| ah.1 ||| av.1, hmask := ah.2, vmask := av.2 }

end Sys2Proof.Machine
end

