-- ==== Sys2Proof/Machine/Controller.lean ====
section
/-! DEFINITION. The controller ports: the shift-register protocol, the poll, the port operations and their bus rows
(spec/43_controller.md R190 to R198). -/

namespace Sys2Proof.Machine

/-! ### The port protocol -/

/-- `Poll(p)` on the port: sample the lines, filter, latch the result (43_controller.md R196, lines 1 to 3). -/
def Port.poll (c : Params) (q : Port) : Port :=
  let f := filterMask c q.mode q.buttonsIn q.prevRaw q.hmask q.vmask
  { q with state := f.out, hmask := f.hmask, vmask := f.vmask, prevRaw := q.buttonsIn }

/-- `Poll(p)` on the shared bit: `aux <- aux | aux_in[p]` (43_controller.md R196, line 4). -/
def Port.pollAux (q : Port) (aux : Bool) : Bool := aux || q.auxIn

/-- A strobe-port write of `v` is a high to low transition (43_controller.md R192, line 3). -/
def Port.falls (v : Byte) (q : Port) : Bool := q.strobe && !strobeBit v

/-- A strobe-port write on the port: `strobe[p] <- v[0]`; a falling edge polls once and loads `sr[p] <- ~state[p]`
(43_controller.md R192). -/
def Port.strobeWrite (c : Params) (v : Byte) (q : Port) : Port :=
  let q1 := { q with strobe := strobeBit v }
  if q.falls v then { q1.poll c with sr := ~~~(q1.poll c).state } else q1

/-- A strobe-port write on the shared bit: only the falling edge polls (43_controller.md R192). -/
def Port.strobeWriteAux (v : Byte) (q : Port) (aux : Bool) : Bool := if q.falls v then q.pollAux aux else aux

/-- `FILL` = `~K` (43_controller.md R194). -/
def padFill : BitVec 1 := ~~~Config.padExhausted

/-- `sr[p] <- {FILL, sr[p][7:1]}` (43_controller.md R194, line 2). -/
def Port.shift (q : Port) : Port := { q with sr := padFill ++ q.sr.extractLsb' 1 7 }

/-- The byte of a strobe-low read: the inverted low bit of the register, and the auxiliary bit on `AUX_PORT` only
(43_controller.md R194, lines 1, 3, 4). -/
def Port.serialByte (c : Params) (p : PortIx) (q : Port) (aux : Bool) : Byte :=
  padByte c (!q.sr.getLsbD 0) (if p = c.auxPort then aux else false)

/-- The byte of a strobe-high read: "the first button's current state" after filtering, bit 0 of the mask, which is
`BTN_A` at the defaults (log 30); no auxiliary bit (43_controller.md R195, line 2). -/
def Port.firstButton (q : Port) : Byte := bitByte (q.state.getLsbD 0)

/-- A strobe-low data-port read of port `p` (43_controller.md R194). -/
def serialRead (p : PortIx) (q : Port) (s : State) : State :=
  (s.setPort p q.shift).answer (.data (q.serialByte s.params p s.aux))

/-- A strobe-high data-port read of port `p`: it polls, and neither loads nor shifts `sr[p]` (43_controller.md R195). -/
def pollRead (p : PortIx) (q : Port) (s : State) : State :=
  ((s.setPort p (q.poll s.params)).setAux (q.pollAux s.aux)).answer (.data (q.poll s.params).firstButton)

/-- `PR p`: the strobe picks the case (43_controller.md R193). -/
def padRead (p : PortIx) (q : Port) (s : State) : State :=
  if q.strobe then pollRead p q s else serialRead p q s

/-- `PW p, v` (43_controller.md R192). -/
def padWrite (p : PortIx) (v : Byte) (q : Port) (s : State) : State :=
  (s.setPort p (q.strobeWrite s.params v)).setAux (q.strobeWriteAux v s.aux)

/-- `PW p, v` on every present port in ascending order: one strobe line feeds all ports (43_controller.md R191). The polls
touch no other port, and the shared bit is handed from port to port. -/
def padWriteAll (v : Byte) (s : State) : State :=
  (s.setPorts (s.ports.map (Port.strobeWrite s.params v))).setAux
    (s.ports.foldl (fun aux q => q.strobeWriteAux v aux) s.aux)

/-- A bus read of `PAD_DATA_ADDR[p]`: `PR p` when port `p` is present, else unmapped (43_controller.md R191). -/
def busPadRead (p : PortIx) (s : State) : State :=
  match s.ports[p.val]? with
  | some q => padRead p q s.beginBus
  | none => unmappedRead s

/-! ### The rows -/

/-- WR.STROBE (43_controller.md R191, R192). -/
def execWrStrobe (v : Byte) (s : State) : Answer := .next (padWriteAll v s.beginBus)

/-- RD.PAD0 (43_controller.md R191). -/
def execRdPad0 (s : State) : Answer := .next (busPadRead 0 s)

/-- RD.PAD1 (43_controller.md R191). -/
def execRdPad1 (s : State) : Answer := .next (busPadRead 1 s)

/-- BF: "clears a shared auxiliary input bit" (43_controller.md R190). -/
def execBf (p : PortIx) (s : State) : Answer := withPort p (fun _ t => t.setAux false) s

/-- PW (43_controller.md R192). -/
def execPw (p : PortIx) (v : Byte) (s : State) : Answer := withPort p (padWrite p v) s

/-- PR.LOW (43_controller.md R194). -/
def execPrLow (p : PortIx) (s : State) : Answer := withPort p (serialRead p) s

/-- PR.HIGH (43_controller.md R195). -/
def execPrHigh (p : PortIx) (s : State) : Answer := withPort p (pollRead p) s

/-- IN: the input layer drives the lines (43_controller.md R197). -/
def execInput (p : PortIx) (mask : Byte) (aux : Bool) (s : State) : Answer :=
  withPort p (fun q t => t.setPort p { q with buttonsIn := mask, auxIn := aux }) s

/-- MODE: the host sets the mode; both resolution masks are cleared (43_controller.md R198). -/
def execMode (p : PortIx) (m : FilterMode) (s : State) : Answer :=
  withPort p (fun q t => t.setPort p { q with mode := m, hmask := 0, vmask := 0 }) s

end Sys2Proof.Machine
end

