-- ==== Sys2Proof/Machine/Registers.lean ====
section
/-! DEFINITION. The meanings of the command-port row and of the sixteen data-port rows (spec/42_reference_board.md R156 to
R169, R173, R174, R176, R177). Every address of a window is the same port (R155). -/

namespace Sys2Proof.Machine

/-- WR.CMD (42_reference_board.md R156). -/
def execWrCmd (a : Addr) (v : Byte) (s : State) : Answer := .next (claimedWrite .commandPort a (storeLatch v) s)

/-- A data-port write that stores `reg[i]` and tells the collaborator. -/
def dataStore (i : RegIx) (a : Addr) (v : Byte) (s : State) : State := claimedWrite .dataPort a (storeReg i v) s

/-- SET.BANK0 (42_reference_board.md R158). -/
def execSetBank0 (a : Addr) (v : Byte) (s : State) : Answer := .next (dataStore 0x0 a v s)
/-- SET.BANK1 (42_reference_board.md R159). -/
def execSetBank1 (a : Addr) (v : Byte) (s : State) : Answer := .next (dataStore 0x1 a v s)
/-- SET.BANK2 (42_reference_board.md R160). -/
def execSetBank2 (a : Addr) (v : Byte) (s : State) : Answer := .next (dataStore 0x2 a v s)
/-- SET.BANK3 (42_reference_board.md R161). -/
def execSetBank3 (a : Addr) (v : Byte) (s : State) : Answer := .next (dataStore 0x3 a v s)
/-- SET.BANK4 (42_reference_board.md R162). -/
def execSetBank4 (a : Addr) (v : Byte) (s : State) : Answer := .next (dataStore 0x4 a v s)
/-- SET.BANK5 (42_reference_board.md R163). -/
def execSetBank5 (a : Addr) (v : Byte) (s : State) : Answer := .next (dataStore 0x5 a v s)
/-- SET.BANK6 (42_reference_board.md R164). -/
def execSetBank6 (a : Addr) (v : Byte) (s : State) : Answer := .next (dataStore 0x6 a v s)
/-- SET.BANK7 (42_reference_board.md R165). -/
def execSetBank7 (a : Addr) (v : Byte) (s : State) : Answer := .next (dataStore 0x7 a v s)
/-- SET.LOWCTL0 (42_reference_board.md R166): the fields are read where the low window is (20_memory.md R77). -/
def execSetLowCtl0 (a : Addr) (v : Byte) (s : State) : Answer := .next (dataStore 0x8 a v s)
/-- SET.LOWCTL1 (42_reference_board.md R167). -/
def execSetLowCtl1 (a : Addr) (v : Byte) (s : State) : Answer := .next (dataStore 0x9 a v s)
/-- SET.REGA (42_reference_board.md R168). -/
def execSetRegA (a : Addr) (v : Byte) (s : State) : Answer := .next (dataStore 0xA a v s)
/-- SET.REGB (42_reference_board.md R176). -/
def execSetRegB (a : Addr) (v : Byte) (s : State) : Answer := .next (dataStore 0xB a v s)
/-- SET.REGC (42_reference_board.md R177). -/
def execSetRegC (a : Addr) (v : Byte) (s : State) : Answer := .next (dataStore 0xC a v s)

/-- SET.IRQCTL (42_reference_board.md R169). -/
def execSetIrqCtl (a : Addr) (v : Byte) (s : State) : Answer := .next (claimedWrite .dataPort a (storeIrqControl v) s)
/-- SET.CNTLO (42_reference_board.md R173). -/
def execSetCntLo (a : Addr) (v : Byte) (s : State) : Answer := .next (claimedWrite .dataPort a (storeCountLow v) s)
/-- SET.CNTHI (42_reference_board.md R174). -/
def execSetCntHi (a : Addr) (v : Byte) (s : State) : Answer := .next (claimedWrite .dataPort a (storeCountHigh v) s)

end Sys2Proof.Machine
end

