-- ==== Sys2Proof/Machine/Snapshots.lean ====
section
/-! DEFINITION. The host snapshot port: save and load of all owned state at the chunk level (spec/44_snapshot.md R230 to
R245; spec/60_exceptions.md R251, R254). -/

namespace Sys2Proof.Machine

/-! ### Save -/

/-- `BoardChunk()`, sub-version 0 (44_snapshot.md R234, R240). -/
def boardChunk (c : Params) (b : Board) : Chunk :=
  { tag := .board, subVersion := 0, payload := (b.variant.caps c).save b }

/-- The payload `{strobe-plus-reserved-bits, inverted shift register}` (44_snapshot.md R236). -/
def padPayload (q : Port) : List Byte := [bitByte q.strobe, q.sr ^^^ 0xFF]

/-- `PadChunk(p)`, sub-version 0 (44_snapshot.md R236). -/
def padChunk (p : PortIx) (q : Port) : Chunk := { tag := .pad p, subVersion := 0, payload := padPayload q }

/-- The controller chunks of the ports present, ascending (44_snapshot.md R232). -/
def padChunks (ports : List Port) : List Chunk :=
  (List.finRange 4).filterMap fun p => (ports[p.val]?).map (padChunk p)

/-- The snapshot of a state: the board chunk first when a Board is active, then the ports (44_snapshot.md R232). -/
def snapshotOf (s : State) : Snapshot :=
  match s.board with
  | some b => boardChunk s.params b :: padChunks s.ports
  | none => padChunks s.ports

/-! ### Load -/

/-- A parsed chunk, not yet committed (44_snapshot.md R233, line 3). -/
inductive Staged where
  | board (img : BoardImage)
  | pad (p : PortIx) (strobe : Bool) (sr : Byte)
  | skipped
  deriving DecidableEq, Repr

/-- `ParsePad`: a payload shorter than 2 bytes is truncated; bits 7:1 of byte 0 and every byte beyond the second are
ignored (44_snapshot.md R238). -/
def parsePad (payload : List Byte) : Option (Bool × Byte) :=
  if payload.length < 2 then none
  else some ((payloadByte payload 0).getLsbD 0, payloadByte payload 1 ^^^ 0xFF)

/-- One chunk, against the components present: an unknown tag, a board chunk without a Board and a chunk of an absent port
are skipped (44_snapshot.md R233, R239). Any sub-version is accepted (R240). -/
def parseChunk (s : State) (c : Chunk) : Except Error Staged :=
  match c.tag with
  | .other _ _ _ _ => .ok .skipped
  | .board =>
    match s.board with
    | none => .ok .skipped
    | some b =>
      match (b.variant.caps s.params).load c.payload with
      | some img => .ok (.board img)
      | none => .error (.formatError c.tag .truncated)
  | .pad p =>
    match s.ports[p.val]? with
    | none => .ok .skipped
    | some _ =>
      match parsePad c.payload with
      | some r => .ok (.pad p r.1 r.2)
      | none => .error (.formatError c.tag .truncated)

/-- Every chunk in list order; the first that fails to parse decides the error (60_exceptions.md R254). -/
def parseAll (s : State) : Snapshot → Except Error (List Staged)
  | [] => .ok []
  | c :: rest =>
    match parseChunk s c with
    | .error e => .error e
    | .ok st =>
      match parseAll s rest with
      | .error e => .error e
      | .ok sts => .ok (st :: sts)

/-- The first tag in list order that a later chunk repeats (44_snapshot.md R233, line 2; log 19). -/
def duplicateTag : Snapshot → Option Tag
  | [] => none
  | c :: rest => if rest.any fun d => d.tag == c.tag then some c.tag else duplicateTag rest

/-- The fields a board chunk carries replace the Board's (44_snapshot.md R233, line 4). -/
def Board.withImage (img : BoardImage) (b : Board) : Board :=
  { b with latch := img.latch, regs := img.regs, timer := img.timer, irqReq := img.irqReq }

/-- A staged board chunk commits its fields, tells the collaborator of every register and drives the line to the loaded
level (44_snapshot.md R233, lines 4 and 5). -/
def commitBoard (img : BoardImage) (s : State) : State :=
  match s.board with
  | some b => ((s.setBoard (some (b.withImage img))).tellAllBanks img.regs).irqLineCall img.irqReq
  | none => s

/-- A staged controller chunk commits the strobe and the shift register and does not poll (44_snapshot.md R238). -/
def commitPad (p : PortIx) (strobe : Bool) (sr : Byte) (s : State) : State :=
  match s.ports[p.val]? with
  | some q => s.setPort p { q with strobe := strobe, sr := sr }
  | none => s

/-- Commit one staged chunk; the fields no chunk carries keep their values (44_snapshot.md R233, R243). -/
def commitOne (s : State) : Staged → State
  | .board img => commitBoard img s
  | .pad p strobe sr => commitPad p strobe sr s
  | .skipped => s

/-- Commit everything staged, in order. -/
def commitAll (s : State) (sts : List Staged) : State := sts.foldl commitOne s

/-- A whole load, at a cycle boundary: nothing is committed unless everything parses (44_snapshot.md R233). -/
def loadSnapshot (snap : Snapshot) (s : State) : Answer :=
  match duplicateTag snap with
  | some t => raise (.formatError t .duplicateTag) s
  | none =>
    match parseAll s snap with
    | .error e => raise e s
    | .ok sts => .next (commitAll s.start sts)

/-! ### The rows -/

/-- SAVE: changes no state (44_snapshot.md R232); inside a cycle it is refused (70_reset_and_hazards.md R290). -/
def execSave (s : State) : Answer :=
  if s.inCycle then .refused .insideCycle else .next (s.start.answer (.snapshot (snapshotOf s)))

/-- LOAD (44_snapshot.md R233); the `formatVersionTag` is carried and not interpreted; inside a cycle it is refused
(70_reset_and_hazards.md R290). -/
def execLoad (snap : Snapshot) (_formatVersionTag : Nat) (s : State) : Answer :=
  if s.inCycle then .refused .insideCycle else loadSnapshot snap s

end Sys2Proof.Machine
end

