-- ==== Sys2Proof/Machine/Dispatch.lean ====
section
/-! DEFINITION. One arm per row of spec/opcode_table.json, each one direct call of its meaning. -/

namespace Sys2Proof.Machine

def exec (i : Instr) (s : State) : Host.Outcome State Fault Refusal :=
  match i with
  | .wrCmd a v => Sys2Proof.Machine.execWrCmd a v s
  | .setBank0 a v => Sys2Proof.Machine.execSetBank0 a v s
  | .setBank1 a v => Sys2Proof.Machine.execSetBank1 a v s
  | .setBank2 a v => Sys2Proof.Machine.execSetBank2 a v s
  | .setBank3 a v => Sys2Proof.Machine.execSetBank3 a v s
  | .setBank4 a v => Sys2Proof.Machine.execSetBank4 a v s
  | .setBank5 a v => Sys2Proof.Machine.execSetBank5 a v s
  | .setBank6 a v => Sys2Proof.Machine.execSetBank6 a v s
  | .setBank7 a v => Sys2Proof.Machine.execSetBank7 a v s
  | .setLowCtl0 a v => Sys2Proof.Machine.execSetLowCtl0 a v s
  | .setLowCtl1 a v => Sys2Proof.Machine.execSetLowCtl1 a v s
  | .setRegA a v => Sys2Proof.Machine.execSetRegA a v s
  | .setRegB a v => Sys2Proof.Machine.execSetRegB a v s
  | .setRegC a v => Sys2Proof.Machine.execSetRegC a v s
  | .setIrqCtl a v => Sys2Proof.Machine.execSetIrqCtl a v s
  | .setCntLo a v => Sys2Proof.Machine.execSetCntLo a v s
  | .setCntHi a v => Sys2Proof.Machine.execSetCntHi a v s
  | .wrLow a v => Sys2Proof.Machine.execWrLow a v s
  | .rdLow a => Sys2Proof.Machine.execRdLow a s
  | .rdCmdData a => Sys2Proof.Machine.execRdCmdData a s
  | .wrStrobe v => Sys2Proof.Machine.execWrStrobe v s
  | .rdPad0 => Sys2Proof.Machine.execRdPad0 s
  | .rdPad1 => Sys2Proof.Machine.execRdPad1 s
  | .rdUnmapped a => Sys2Proof.Machine.execRdUnmapped a s
  | .wrUnmapped a v => Sys2Proof.Machine.execWrUnmapped a v s
  | .clk => Sys2Proof.Machine.execClk s
  | .rstSoft => Sys2Proof.Machine.execRstSoft s
  | .rstHard => Sys2Proof.Machine.execRstHard s
  | .syncFrameStart => Sys2Proof.Machine.execSyncFrameStart s
  | .syncFrameEnd => Sys2Proof.Machine.execSyncFrameEnd s
  | .syncAddrEdge => Sys2Proof.Machine.execSyncAddrEdge s
  | .syncStrobeEdge => Sys2Proof.Machine.execSyncStrobeEdge s
  | .bf p => Sys2Proof.Machine.execBf p s
  | .pw p v => Sys2Proof.Machine.execPw p v s
  | .prLow p => Sys2Proof.Machine.execPrLow p s
  | .prHigh p => Sys2Proof.Machine.execPrHigh p s
  | .save => Sys2Proof.Machine.execSave s
  | .load snap tag => Sys2Proof.Machine.execLoad snap tag s
  | .new ctx => Sys2Proof.Machine.execNew ctx s
  | .del => Sys2Proof.Machine.execDel s
  | .input p mask aux => Sys2Proof.Machine.execInput p mask aux s
  | .mode p m => Sys2Proof.Machine.execMode p m s
  | .range low high h => Sys2Proof.Machine.execRange low high h s

end Sys2Proof.Machine
end

