-- ==== Sys2Proof/WellFormed.lean ====
section
/-! DEFINITION. Which terms of `Instr` stand for an operation the environment can apply to a block with the parameters
`c` and `nports` controller ports: each bus row's address lies where that row is decoded (spec/opcode_table.json, spec/30_encoding.md R94,
R113), each port is present (R111), a Context's byte sequences are in canonical form, a range is not inverted
(spec/40_dispatch.md R122). -/

namespace Sys2Proof

/-- Offsets strictly rising, below `size`, and no listed byte 0x00. -/
def Rom.wfFrom (size : Nat) : Nat → List (Nat × Byte) → Bool
  | _, [] => true
  | lo, (i, b) :: rest => decide (lo ≤ i) && decide (i < size) && (b != 0) && Rom.wfFrom size (i + 1) rest

/-- The canonical form of a byte sequence. -/
def Rom.wf (r : Rom) : Bool := Rom.wfFrom r.size 0 r.cells

/-- Both byte sequences of a Context are canonical. -/
def Context.wf (c : Context) : Bool := c.programROM.wf && c.characterROM.wf

/-- `addr == PAD_DATA_ADDR[p]` for a present port `p`, of `nports` (40_dispatch.md R124; 43_controller.md R191). -/
def presentPad (c : Params) (nports : Nat) (a : Addr) : Bool :=
  (a == c.padData0Addr && decide (0 < nports)) || (a == c.padData1Addr && decide (1 < nports))

/-- An address no bus read row but RD.UNMAPPED claims, with `nports` ports present (40_dispatch.md R126). -/
def readUnmapped (c : Params) (nports : Nat) (a : Addr) : Bool := !(Machine.inWindow c a || presentPad c nports a)

/-- An address no bus write row but WR.UNMAPPED claims (40_dispatch.md R127). -/
def writeUnmapped (c : Params) (a : Addr) : Bool := !(Machine.inWindow c a || a == c.padStrobeAddr)

/-- The check, row by row. -/
def Instr.wf (c : Params) (nports : Nat) : Instr → Bool
  | .wrCmd a _ => Machine.inCmdWindow c a
  | .setBank0 a _ | .setBank1 a _ | .setBank2 a _ | .setBank3 a _ => Machine.inDataWindow c a
  | .setBank4 a _ | .setBank5 a _ | .setBank6 a _ | .setBank7 a _ => Machine.inDataWindow c a
  | .setLowCtl0 a _ | .setLowCtl1 a _ => Machine.inDataWindow c a
  | .setRegA a _ | .setRegB a _ | .setRegC a _ => Machine.inDataWindow c a
  | .setIrqCtl a _ | .setCntLo a _ | .setCntHi a _ => Machine.inDataWindow c a
  | .wrLow a _ | .rdLow a => Machine.inLowWindow c a
  | .rdCmdData a => Machine.inCmdWindow c a || Machine.inDataWindow c a
  | .wrStrobe _ => true
  | .rdPad0 => decide (0 < nports)
  | .rdPad1 => decide (1 < nports)
  | .rdUnmapped a => readUnmapped c nports a
  | .wrUnmapped a _ => writeUnmapped c a
  | .clk | .rstSoft | .rstHard => true
  | .syncFrameStart | .syncFrameEnd | .syncAddrEdge | .syncStrobeEdge => true
  | .bf p | .pw p _ | .prLow p | .prHigh p | .input p _ _ | .mode p _ => decide (p.val < nports)
  | .save | .load _ _ | .del => true
  | .new ctx => ctx.wf
  | .range low high _ => decide (low ≤ high)

end Sys2Proof
end

