-- ==== Sys2Proof/Decode.lean ====
section
/-! DEFINITION. Decoding a trace item into the row of spec/opcode_table.json it stands for (spec/30_encoding.md R91 to
R96, R105, R111, R113) and, after it, the encoder written from the same rules. The word alone does not pick the row: a bus
word goes to the handler the active Board has bound at its address, before any controller port (R94; 40_dispatch.md R124,
R125), the sixteen data-port rows are told apart by `latch` (R96) and the two data-port reads by `strobe[port]`
(43_controller.md R193). `DecodeCtx` carries all three. -/

namespace Sys2Proof

/-- What decoding reads of the machine: its parameters, the bindings of the active Board (none without one), the command
latch, and the strobe bit of every port present, so that `NPORTS` is the number of strobes (00_scope.md R9; 30_encoding.md
R94, R96, R111, R113). -/
structure DecodeCtx where
  params : Params
  bindings : List Binding
  latch : BitVec 4
  strobes : List Bool
  deriving DecidableEq, Repr

/-- `NPORTS` (00_scope.md R9). -/
def DecodeCtx.nports (c : DecodeCtx) : Nat := c.strobes.length

/-- `kind` = bits 31:28 (30_encoding.md R91). -/
def wordKind (w : Word) : BitVec 4 := w.extractLsb' 28 4
/-- `sub` = bits 27:24 (30_encoding.md R91). -/
def wordSub (w : Word) : BitVec 4 := w.extractLsb' 24 4
/-- `addr` = bits 23:8 (30_encoding.md R91). -/
def wordAddr (w : Word) : Addr := w.extractLsb' 8 16
/-- `data` = bits 7:0 (30_encoding.md R91). -/
def wordData (w : Word) : Byte := w.extractLsb' 0 8

/-- The row of a read that neither a binding nor a controller port claims: the row of the window its address lies in, whose
meaning finds no binding either (20_memory.md R75; 40_dispatch.md R126, R132; log 16). -/
def windowReadRow (c : Params) (a : Addr) : Instr :=
  if Machine.inLowWindow c a then .rdLow a
  else if Machine.inCmdWindow c a || Machine.inDataWindow c a then .rdCmdData a
  else .rdUnmapped a

/-- The row a bus read of `a` is decoded to: a bound read handler first, then the data port of a present port, then no claim
(40_dispatch.md R124; 30_encoding.md R94; 43_controller.md R191). -/
def readRow (c : DecodeCtx) (a : Addr) : Instr :=
  match Machine.findRead c.bindings a with
  | some .lowPage => .rdLow a
  | none =>
    if a == c.params.padData0Addr && decide (0 < c.nports) then .rdPad0
    else if a == c.params.padData1Addr && decide (1 < c.nports) then .rdPad1
    else windowReadRow c.params a

/-- The row a data-port write is decoded to by the latch (30_encoding.md R96). -/
def dataRow (latch : BitVec 4) (a : Addr) (v : Byte) : Instr :=
  match latch.toNat with
  | 0x0 => .setBank0 a v
  | 0x1 => .setBank1 a v
  | 0x2 => .setBank2 a v
  | 0x3 => .setBank3 a v
  | 0x4 => .setBank4 a v
  | 0x5 => .setBank5 a v
  | 0x6 => .setBank6 a v
  | 0x7 => .setBank7 a v
  | 0x8 => .setLowCtl0 a v
  | 0x9 => .setLowCtl1 a v
  | 0xA => .setRegA a v
  | 0xB => .setRegB a v
  | 0xC => .setRegC a v
  | 0xD => .setIrqCtl a v
  | 0xE => .setCntLo a v
  | _ => .setCntHi a v

/-- The row of a write to a bound write handler (20_memory.md R75; 30_encoding.md R96). -/
def handlerRow (latch : BitVec 4) (a : Addr) (v : Byte) : WriteHandler → Instr
  | .lowRam => .wrLow a v
  | .commandPort => .wrCmd a v
  | .dataPort => dataRow latch a v

/-- The row of a write that neither a binding nor the strobe port claims: the row of the window its address lies in, whose
meaning finds no binding either (20_memory.md R75; 40_dispatch.md R127, R132; log 16). -/
def windowWriteRow (c : Params) (latch : BitVec 4) (a : Addr) (v : Byte) : Instr :=
  if Machine.inLowWindow c a then handlerRow latch a v .lowRam
  else if Machine.inCmdWindow c a then handlerRow latch a v .commandPort
  else if Machine.inDataWindow c a then handlerRow latch a v .dataPort
  else .wrUnmapped a v

/-- The row a bus write of `v` to `a` is decoded to: a bound write handler first, then the strobe port, then no claim
(40_dispatch.md R125; 30_encoding.md R94, R96; 43_controller.md R191). -/
def writeRow (c : DecodeCtx) (a : Addr) (v : Byte) : Instr :=
  match Machine.findWrite c.bindings a with
  | some h => handlerRow c.latch a v h
  | none => if a == c.params.padStrobeAddr then .wrStrobe v else windowWriteRow c.params c.latch a v

/-- The port a `sub` field names, when it is present: `sub` below `NPORTS`, which is at most 4 (30_encoding.md R111). -/
def portOf (nports : Nat) (sub : BitVec 4) : Option PortIx :=
  if h : sub.toNat < 4 then (if sub.toNat < nports then some ⟨sub.toNat, h⟩ else none) else none

/-- The filter mode a code names (30_encoding.md R105). -/
def modeOf (code : Byte) : Option FilterMode :=
  match code.toNat with
  | 0 => some .off
  | 1 => some .neutral
  | 2 => some .firstPress
  | 3 => some .latestPress
  | 4 => some .firstRepress
  | 5 => some .latestRepress
  | _ => none

/-- Refuse with `why` unless `ok`. -/
def demand (ok : Bool) (why : DecodeReject) (k : Except DecodeReject Instr) : Except DecodeReject Instr :=
  if ok then k else .error why

/-- An operation that uses neither `addr` nor `data`, nor a separate operand (30_encoding.md R111). -/
def bare (it : TraceItem) (k : Except DecodeReject Instr) : Except DecodeReject Instr :=
  demand (wordAddr it.word == 0 && wordData it.word == 0) .unusedField
    (demand (it.operand == .none) .operandUnused k)

/-- As `bare`, with `sub` unused too. -/
def bareSub (it : TraceItem) (k : Except DecodeReject Instr) : Except DecodeReject Instr :=
  demand (wordSub it.word == 0) .unusedField (bare it k)

/-- An operation on the port its `sub` names. -/
def onPort (c : DecodeCtx) (it : TraceItem) (k : PortIx → Except DecodeReject Instr) : Except DecodeReject Instr :=
  match portOf c.nports (wordSub it.word) with
  | none => .error .badPort
  | some p => k p

/-- The data-port read of port `p`: its strobe picks the row (43_controller.md R193). -/
def padReadRow (c : DecodeCtx) (p : PortIx) : Instr :=
  if c.strobes[p.val]? = some true then .prHigh p else .prLow p

/-- The decoder: total on every word and operand, refusing by name whatever is not an operation
(30_encoding.md R92, R93, R111). -/
def decode (c : DecodeCtx) (it : TraceItem) : Except DecodeReject Instr :=
  match (wordKind it.word).toNat with
  | 0x0 =>
    demand (wordSub it.word == 0) .busSub
      (demand (wordData it.word == 0) .unusedField
        (demand (it.operand == .none) .operandUnused (.ok (readRow c (wordAddr it.word)))))
  | 0x1 =>
    demand (wordSub it.word == 0) .busSub
      (demand (it.operand == .none) .operandUnused
        (.ok (writeRow c (wordAddr it.word) (wordData it.word))))
  | 0x2 => bareSub it (.ok .clk)
  | 0x3 =>
    match (wordSub it.word).toNat with
    | 0 => bare it (.ok .rstSoft)
    | 1 => bare it (.ok .rstHard)
    | _ => .error .badReset
  | 0x4 =>
    match (wordSub it.word).toNat with
    | 0 => bare it (.ok .syncFrameStart)
    | 1 => bare it (.ok .syncFrameEnd)
    | 2 => bare it (.ok .syncAddrEdge)
    | 3 => bare it (.ok .syncStrobeEdge)
    | _ => .error .badEvent
  | 0x5 => onPort c it fun p => bare it (.ok (.bf p))
  | 0x6 => onPort c it fun p =>
    demand (wordAddr it.word == 0) .unusedField
      (demand (it.operand == .none) .operandUnused (.ok (.pw p (wordData it.word))))
  | 0x7 => onPort c it fun p => bare it (.ok (padReadRow c p))
  | 0x8 => bareSub it (.ok .save)
  | 0x9 =>
    demand (wordSub it.word == 0 && wordAddr it.word == 0 && wordData it.word == 0) .unusedField
      (match it.operand with
        | .snapshot snap tag => .ok (.load snap tag)
        | .none => .error .operandMissing
        | .context _ => .error .operandUnused)
  | 0xA =>
    demand (wordSub it.word == 0 && wordAddr it.word == 0 && wordData it.word == 0) .unusedField
      (match it.operand with
        | .context ctx => .ok (.new ctx)
        | .none => .error .operandMissing
        | .snapshot _ _ => .error .operandUnused)
  | 0xB => bareSub it (.ok .del)
  | 0xC => onPort c it fun p =>
    demand ((wordAddr it.word).extractLsb' 1 15 == 0) .unusedField
      (demand (it.operand == .none) .operandUnused
        (.ok (.input p (wordData it.word) ((wordAddr it.word).getLsbD 0))))
  | 0xD => onPort c it fun p =>
    demand (wordAddr it.word == 0) .unusedField
      (demand (it.operand == .none) .operandUnused
        (match modeOf (wordData it.word) with
          | some m => .ok (.mode p m)
          | none => .error .badMode))
  | _ => .error .unknownKind

/-! ### The encoder -/

/-- `{kind[3:0], sub[3:0], addr[15:0], data[7:0]}` (30_encoding.md R91). -/
def mkWord (kind sub : BitVec 4) (addr : Addr) (data : Byte) : Word := kind ++ sub ++ addr ++ data

/-- The code of a filter mode (30_encoding.md R105). -/
def modeCode : FilterMode → Byte
  | .off => 0
  | .neutral => 1
  | .firstPress => 2
  | .latestPress => 3
  | .firstRepress => 4
  | .latestRepress => 5

/-- The `sub` field that names a port (30_encoding.md R92). -/
def portSub (p : PortIx) : BitVec 4 := BitVec.ofNat 4 p.val

/-- The `addr` field of `IN`: `addr[0]` is the auxiliary line (30_encoding.md R92). -/
def auxAddr (aux : Bool) : Addr := if aux then 1 else 0

/-- A word without a separate operand. -/
def plainItem (kind sub : BitVec 4) (addr : Addr) (data : Byte) : TraceItem := ⟨mkWord kind sub addr data, .none⟩

/-- The trace item of an operation; RANGE alone has none: it occurs only inside NEW (40_dispatch.md R122,
30_encoding.md R113). -/
def encode (c : Params) : Instr → Option TraceItem
  | .wrCmd a v => some (plainItem 0x1 0 a v)
  | .setBank0 a v => some (plainItem 0x1 0 a v)
  | .setBank1 a v => some (plainItem 0x1 0 a v)
  | .setBank2 a v => some (plainItem 0x1 0 a v)
  | .setBank3 a v => some (plainItem 0x1 0 a v)
  | .setBank4 a v => some (plainItem 0x1 0 a v)
  | .setBank5 a v => some (plainItem 0x1 0 a v)
  | .setBank6 a v => some (plainItem 0x1 0 a v)
  | .setBank7 a v => some (plainItem 0x1 0 a v)
  | .setLowCtl0 a v => some (plainItem 0x1 0 a v)
  | .setLowCtl1 a v => some (plainItem 0x1 0 a v)
  | .setRegA a v => some (plainItem 0x1 0 a v)
  | .setRegB a v => some (plainItem 0x1 0 a v)
  | .setRegC a v => some (plainItem 0x1 0 a v)
  | .setIrqCtl a v => some (plainItem 0x1 0 a v)
  | .setCntLo a v => some (plainItem 0x1 0 a v)
  | .setCntHi a v => some (plainItem 0x1 0 a v)
  | .wrLow a v => some (plainItem 0x1 0 a v)
  | .rdLow a => some (plainItem 0x0 0 a 0)
  | .rdCmdData a => some (plainItem 0x0 0 a 0)
  | .wrStrobe v => some (plainItem 0x1 0 c.padStrobeAddr v)
  | .rdPad0 => some (plainItem 0x0 0 c.padData0Addr 0)
  | .rdPad1 => some (plainItem 0x0 0 c.padData1Addr 0)
  | .rdUnmapped a => some (plainItem 0x0 0 a 0)
  | .wrUnmapped a v => some (plainItem 0x1 0 a v)
  | .clk => some (plainItem 0x2 0 0 0)
  | .rstSoft => some (plainItem 0x3 0 0 0)
  | .rstHard => some (plainItem 0x3 1 0 0)
  | .syncFrameStart => some (plainItem 0x4 0 0 0)
  | .syncFrameEnd => some (plainItem 0x4 1 0 0)
  | .syncAddrEdge => some (plainItem 0x4 2 0 0)
  | .syncStrobeEdge => some (plainItem 0x4 3 0 0)
  | .bf p => some (plainItem 0x5 (portSub p) 0 0)
  | .pw p v => some (plainItem 0x6 (portSub p) 0 v)
  | .prLow p => some (plainItem 0x7 (portSub p) 0 0)
  | .prHigh p => some (plainItem 0x7 (portSub p) 0 0)
  | .save => some (plainItem 0x8 0 0 0)
  | .load snap tag => some ⟨mkWord 0x9 0 0 0, .snapshot snap tag⟩
  | .new ctx => some ⟨mkWord 0xA 0 0 0, .context ctx⟩
  | .del => some (plainItem 0xB 0 0 0)
  | .input p mask aux => some (plainItem 0xC (portSub p) (auxAddr aux) mask)
  | .mode p m => some (plainItem 0xD (portSub p) 0 (modeCode m))
  | .range _ _ _ => none

/-- A read of `a` reaches the row of the handler `h`: it is bound there, or no claim is made at `a` and the address alone
picks the row (40_dispatch.md R124; log 16). -/
def DecodeCtx.readsAs (c : DecodeCtx) (h : ReadHandler) (a : Addr) : Bool :=
  match Machine.findRead c.bindings a with
  | some g => g == h
  | none => !presentPad c.params c.nports a

/-- A write to `a` reaches the row of the handler `h`: it is bound there, or no claim is made at `a` and the address alone
picks the row (40_dispatch.md R125; log 16). -/
def DecodeCtx.writesAs (c : DecodeCtx) (h : WriteHandler) (a : Addr) : Bool :=
  match Machine.findWrite c.bindings a with
  | some g => g == h
  | none => a != c.params.padStrobeAddr

/-- No binding claims a read of `a`. -/
def DecodeCtx.readFree (c : DecodeCtx) (a : Addr) : Bool := (Machine.findRead c.bindings a).isNone

/-- No binding claims a write to `a`. -/
def DecodeCtx.writeFree (c : DecodeCtx) (a : Addr) : Bool := (Machine.findWrite c.bindings a).isNone

/-- The state that picks this row among the rows with its word: the bindings (30_encoding.md R94; 40_dispatch.md R124, R125)
and the `state` fields of spec/opcode_table.json, the latch and the strobe (30_encoding.md R96, R113; 43_controller.md
R193). -/
def Instr.selectedBy (c : DecodeCtx) : Instr → Bool
  | .wrCmd a _ => c.writesAs .commandPort a
  | .setBank0 a _ => c.latch == 0x0 && c.writesAs .dataPort a
  | .setBank1 a _ => c.latch == 0x1 && c.writesAs .dataPort a
  | .setBank2 a _ => c.latch == 0x2 && c.writesAs .dataPort a
  | .setBank3 a _ => c.latch == 0x3 && c.writesAs .dataPort a
  | .setBank4 a _ => c.latch == 0x4 && c.writesAs .dataPort a
  | .setBank5 a _ => c.latch == 0x5 && c.writesAs .dataPort a
  | .setBank6 a _ => c.latch == 0x6 && c.writesAs .dataPort a
  | .setBank7 a _ => c.latch == 0x7 && c.writesAs .dataPort a
  | .setLowCtl0 a _ => c.latch == 0x8 && c.writesAs .dataPort a
  | .setLowCtl1 a _ => c.latch == 0x9 && c.writesAs .dataPort a
  | .setRegA a _ => c.latch == 0xA && c.writesAs .dataPort a
  | .setRegB a _ => c.latch == 0xB && c.writesAs .dataPort a
  | .setRegC a _ => c.latch == 0xC && c.writesAs .dataPort a
  | .setIrqCtl a _ => c.latch == 0xD && c.writesAs .dataPort a
  | .setCntLo a _ => c.latch == 0xE && c.writesAs .dataPort a
  | .setCntHi a _ => c.latch == 0xF && c.writesAs .dataPort a
  | .wrLow a _ => c.writesAs .lowRam a
  | .wrStrobe _ => c.writeFree c.params.padStrobeAddr
  | .wrUnmapped a _ => c.writeFree a
  | .rdLow a => c.readsAs .lowPage a
  | .rdPad0 => c.readFree c.params.padData0Addr
  | .rdPad1 => c.readFree c.params.padData1Addr
  | .rdCmdData a => c.readFree a && !presentPad c.params c.nports a
  | .rdUnmapped a => c.readFree a
  | .prLow p => c.strobes[p.val]? != some true
  | .prHigh p => c.strobes[p.val]? == some true
  | .clk | .rstSoft | .rstHard | .syncFrameStart | .syncFrameEnd | .syncAddrEdge | .syncStrobeEdge => true
  | .bf _ | .pw _ _ | .save | .load _ _ | .new _ | .del | .input _ _ _ | .mode _ _ | .range _ _ _ => true

/-! ### Pseudo-operations (30_encoding.md R112, 00_scope.md R15) -/

/-- `SEL r` = `W CMD_LO, r`. -/
def pseudoSel (c : Params) (r : BitVec 4) : List TraceItem := [plainItem 0x1 0 c.cmdLo (r.setWidth 8)]

/-- `SET r, v` = `W CMD_LO, r` ; `W DATA_LO, v`. -/
def pseudoSet (c : Params) (r : BitVec 4) (v : Byte) : List TraceItem := pseudoSel c r ++ [plainItem 0x1 0 c.dataLo v]

/-- `SETCNT n` = `SET 0xE, n[7:0]` ; `SET 0xF, n[15:8]`. -/
def pseudoSetCnt (c : Params) (n : Count) : List TraceItem :=
  pseudoSet c 0xE (n.extractLsb' 0 8) ++ pseudoSet c 0xF (n.extractLsb' 8 8)

/-- `POLL2 p` = `PW p, 1` ; `PW p, 0`. -/
def pseudoPoll2 (p : PortIx) : List TraceItem := [plainItem 0x6 (portSub p) 0 1, plainItem 0x6 (portSub p) 0 0]

/-- `CLK*n` = `CLK` repeated `n` times. -/
def pseudoClk (n : Nat) : List TraceItem := List.replicate n (plainItem 0x2 0 0 0)

/-! ### Decoding a bare table word -/

/-- The decoding context a bare table word is read in, that of the reset state: the default parameters (log 1), no Board and
so no binding (log 5), the latch 0 and the strobes low (10_state.md R45, R47), four ports (log 4). -/
def DecodeCtx.table : DecodeCtx := ⟨Params.default, [], 0x0, [false, false, false, false]⟩

/-- The Context that stands for NEW's separate operand where a bare word is asked about: the reference variant over
empty ROMs without RAM (log 12). -/
def Context.blank : Context := ⟨⟨0, []⟩, ⟨0, []⟩, 0, .reference, ⟨false, []⟩⟩

/-- The separate operand supplied with a bare word: a Context for NEW, an empty snapshot for LOAD (log 12). -/
def standardOperand (w : Word) : Operand :=
  match (wordKind w).toNat with
  | 0x9 => .snapshot [] 0
  | 0xA => .context Context.blank
  | _ => .none

/-- The instruction the decoder reads from a table word of `nbits` bits: every row has 32 bits (log 12). -/
def decodeTableWord (nbits w : Nat) : Option Instr :=
  if nbits ≤ 32 ∧ w < 2 ^ 32 then
    match decode DecodeCtx.table ⟨BitVec.ofNat 32 w, standardOperand (BitVec.ofNat 32 w)⟩ with
    | .ok i => some i
    | .error _ => none
  else none

end Sys2Proof
end

