-- ==== Sys2Proof/Machine/Fetch.lean ====
section
/-! DEFINITION. Fetching: the block has no program counter (spec/10_state.md R30); its next operation is the head of the
trace, read in the order given (spec/00_scope.md R14; spec/20_memory.md R78, R80; log 11). -/

namespace Sys2Proof.Machine

/-- The latch of the active Board; with no Board the rows of the data window are all unmapped, and 0 stands here
(40_dispatch.md R132; log 16). -/
def State.latch (s : State) : BitVec 4 :=
  match s.board with
  | some b => b.latch
  | none => 0

/-- The bindings of the active Board; with none active there is none (40_dispatch.md R132). -/
def State.bindings (s : State) : List Binding :=
  match s.board with
  | some b => b.bindings
  | none => []

/-- What decoding reads of the state (30_encoding.md R94, R113). -/
def State.decodeCtx (s : State) : DecodeCtx := ⟨s.params, s.bindings, s.latch, s.ports.map Port.strobe⟩

/-- The next operation and the state it is applied to, the operation taken off the one timeline; no other source of
operations exists (20_memory.md R80). -/
def fetch (s : State) : Option (TraceItem × State) :=
  match s.trace with
  | [] => none
  | it :: rest => some (it, s.setTrace rest)

/-- A trace item placed where the next step reads it. -/
def placeItem (it : TraceItem) (s : State) : State := s.setTrace (it :: s.trace)

/-- The item of a bare table word: the word and the standard separate operand (log 12). -/
def tableItem (w : Nat) : TraceItem := ⟨BitVec.ofNat 32 w, standardOperand (BitVec.ofNat 32 w)⟩

end Sys2Proof.Machine
end

