-- ==== Sys2Proof/Machine/Step.lean ====
section
/-! DEFINITION. One step: the next operation of the trace is decoded in the present state and applied
(spec/00_scope.md R14; spec/20_memory.md R78, R80). With nothing pending the block initiates nothing and stays as it is
(spec/00_scope.md R16; log 11). -/

namespace Sys2Proof.Machine

/-- One operation applied whole before the next is looked at: "there is one timeline and one bus master", "no internal
parallelism" (20_memory.md R78, R80). -/
def step (s : State) : Host.Outcome State Fault Refusal :=
  match fetch s with
  | none => .next s
  | some (it, t) =>
    match decode s.decodeCtx it with
    | .ok i => exec i t
    | .error why => .refused (.notAnOperation why)

/-- `s` with the table word `w` as the next operation of the trace; every row has 32 bits, so `nbits` adds nothing. -/
def State.withFetchWord (s : State) (_nbits w : Nat) : State := placeItem (tableItem w) s

end Sys2Proof.Machine
end

