-- ==== Sys2Proof/Machine/BusRoute.lean ====
section
/-! DEFINITION. The framework's bus dispatch as spec/40_dispatch.md R124 and R125 write it: through the active Board's
bindings and its capability set, without the opcode table's rows. A step on a bus word is stated equal to it in every
state (Certificates/Slice0/Obligations.lean). -/

namespace Sys2Proof.Machine

/-- The read handler the active Board has bound at an address, if any (40_dispatch.md R124). -/
def State.boundRead (s : State) (a : Addr) : Option (Board × ReadHandler) :=
  match s.board with
  | some b => (findRead b.bindings a).map fun h => (b, h)
  | none => none

/-- The write handler the active Board has bound at an address, if any (40_dispatch.md R125). -/
def State.boundWrite (s : State) (a : Addr) : Option (Board × WriteHandler) :=
  match s.board with
  | some b => (findWrite b.bindings a).map fun h => (b, h)
  | none => none

/-- The port whose data port stands at a bus address (43_controller.md R191). -/
def padDataPort (c : Params) (a : Addr) : Option PortIx :=
  if a = c.padData0Addr then some 0 else if a = c.padData1Addr then some 1 else none

/-- `dispatchRead(address) -> byte` (40_dispatch.md R124). -/
def dispatchRead (a : Addr) (s : State) : State :=
  match s.boundRead a with
  | some (b, h) => (b.variant.caps s.params).busRead h a b s.beginBus
  | none =>
    match padDataPort s.params a with
    | some p => busPadRead p s
    | none => unmappedRead s

/-- `dispatchWrite(address, byte)` (40_dispatch.md R125). -/
def dispatchWrite (a : Addr) (v : Byte) (s : State) : State :=
  match s.boundWrite a with
  | some (b, h) => (b.variant.caps s.params).busWrite h a v b s.beginBus
  | none => if a = s.params.padStrobeAddr then padWriteAll v s.beginBus else unmappedWrite s

end Sys2Proof.Machine
end

