-- ==== Sys2Proof/Safety.lean ====
section
/-! DEFINITION. The terms claims are made in: applying a list of operations, a safe run, and the invariant of the block
(spec/10_state.md R49; spec/43_controller.md R216). -/

namespace Sys2Proof.Machine

/-- Apply operations one after another; "its state after a trace is the left fold of the operations' rules"
(00_scope.md R14). -/
def execAll : List Instr → State → Answer
  | [], s => .next s
  | i :: rest, s =>
    match exec i s with
    | .next t => execAll rest t
    | .fault r => .fault r
    | .refused r => .refused r

/-- A run of `k` steps that nothing stops. -/
def SafeFor (k : Nat) (s : State) : Prop := ∃ t, Sys2Proof.core.run k s = .next t

/-- What every poll leaves of a port, and no other operation undoes (10_state.md R38, 43_controller.md R216): each
resolution mask holds at most one of its two directions, the plain buttons of the latched mask are those sampled, and no
direction is latched that was not sampled. -/
def Port.Legal (c : Params) (q : Port) : Prop :=
  (q.hmask = 0 ∨ q.hmask = btnLeft c ∨ q.hmask = btnRight c) ∧
  (q.vmask = 0 ∨ q.vmask = btnUp c ∨ q.vmask = btnDown c) ∧
  q.state &&& plainButtons c = q.prevRaw &&& plainButtons c ∧
  q.state &&& ~~~q.prevRaw = 0

/-- The active Board is the one its Context selects, its bindings are those its variant declares, and the collaborator has
been told what its registers hold (40_dispatch.md R121, 10_state.md R31, R46). -/
def Board.Agrees (c : Params) (b : Board) (banks : Vector Byte 13) : Prop :=
  supported b.ctx.variantSelector = some b.variant ∧ b.bindings = (b.variant.caps c).ranges ∧ banks = b.regs

/-- The invariant of the block between operations. -/
structure State.Inv (s : State) : Prop where
  /-- the parameters are a consistent choice (00_scope.md R9; log 30). -/
  params_wf : s.params.wf = true
  /-- 1 to 4 ports (00_scope.md R9). -/
  ports_pos : 1 ≤ s.ports.length
  ports_le : s.ports.length ≤ 4
  /-- every port is legal (10_state.md R49(b)). -/
  ports_legal : ∀ q ∈ s.ports, q.Legal s.params
  /-- the interrupt line is at the level of `irq_req` (10_state.md R49(e)). -/
  line : s.irqLine = s.irqReq
  /-- the selected variant, bindings and banks (40_dispatch.md R121, 10_state.md R31, R46). -/
  agrees : ∀ b, s.board = some b → b.Agrees s.params s.banks
  /-- no construction is in progress between operations (40_dispatch.md R121, R122). -/
  built : s.construction = none
  /-- the work RAM is in canonical form. -/
  ram : s.wram.wf = true

/-! ### Shapes of operations -/

/-- A row is the one a data-port write is decoded to when the latch is `n` (30_encoding.md R96). -/
def RowOfLatch (n : BitVec 4) (mk : Addr → Byte → Instr) : Prop := ∀ a v, dataRow n a v = mk a v

/-- At every address bound as the data port, the row stores the whole byte in register `i`, tells the collaborator of it,
and changes nothing else: no timer field, no request, no other register, no memory (of the model's own `inCycle` it says
nothing). -/
def StoresRegister (mk : Addr → Byte → Instr) (i : RegIx) : Prop :=
  ∀ (s : State) (b : Board) (a : Addr) (v : Byte), s.board = some b → findWrite b.bindings a = some .dataPort →
    ∃ c : Bool, exec (mk a v) s = .next { s with
      board := some { b with regs := b.regs.set i v }
      banks := s.banks.set i v
      inCycle := c
      result := .none
      calls := [.bankSelect i v] }

/-- The classes of operations that claims speak of. -/
inductive OpClass where
  | commandWrite | registerWrite | timerWrite | lowWrite | strobeWrite | unmappedWrite
  | lowRead | padRead | unmappedRead
  | pulse | reset | sync | port | snapshot | construct | destroy
  deriving DecidableEq, Repr

/-- The class of an operation. `registerWrite` is a data-port write to a stored register, `timerWrite` one to register D,
E or F. -/
def opClass : Instr → OpClass
  | .wrCmd _ _ => .commandWrite
  | .setBank0 _ _ | .setBank1 _ _ | .setBank2 _ _ | .setBank3 _ _ => .registerWrite
  | .setBank4 _ _ | .setBank5 _ _ | .setBank6 _ _ | .setBank7 _ _ => .registerWrite
  | .setLowCtl0 _ _ | .setLowCtl1 _ _ | .setRegA _ _ | .setRegB _ _ | .setRegC _ _ => .registerWrite
  | .setIrqCtl _ _ | .setCntLo _ _ | .setCntHi _ _ => .timerWrite
  | .wrLow _ _ => .lowWrite
  | .wrStrobe _ => .strobeWrite
  | .wrUnmapped _ _ => .unmappedWrite
  | .rdLow _ => .lowRead
  | .rdPad0 | .rdPad1 => .padRead
  | .rdCmdData _ | .rdUnmapped _ => .unmappedRead
  | .clk => .pulse
  | .rstSoft | .rstHard => .reset
  | .syncFrameStart | .syncFrameEnd | .syncAddrEdge | .syncStrobeEdge => .sync
  | .bf _ | .pw _ _ | .prLow _ | .prHigh _ | .input _ _ _ | .mode _ _ => .port
  | .save | .load _ _ => .snapshot
  | .new _ | .range _ _ _ => .construct
  | .del => .destroy

/-- Bus writes. -/
def IsBusWrite (i : Instr) : Prop :=
  opClass i ∈ [OpClass.commandWrite, .registerWrite, .timerWrite, .lowWrite, .strobeWrite, .unmappedWrite]

/-- Bus reads. -/
def IsBusRead (i : Instr) : Prop := opClass i ∈ [OpClass.lowRead, .padRead, .unmappedRead]

/-- Writes the reference board's windows claim, all but the controller and the unmapped rows (20_memory.md R75). -/
def IsWindowWrite (i : Instr) : Prop :=
  opClass i ∈ [OpClass.commandWrite, .registerWrite, .timerWrite, .lowWrite]

/-- Resets and syncs. -/
def IsResetOrSync (i : Instr) : Prop := opClass i ∈ [OpClass.reset, .sync]

/-- The clock pulse. -/
def IsPulse (i : Instr) : Bool := opClass i == .pulse

/-- The bus accesses 41_timer.md R146 calls unrelated: all that are not data-port writes to registers D, E or F. -/
def IsUnrelated (i : Instr) : Prop := (IsBusWrite i ∨ IsBusRead i) ∧ opClass i ≠ .timerWrite

/-- Board operations, the clock pulse, sync, save, construction and destruction: all that are no controller operation, no
reset and no load. -/
def IsBoardOp (i : Instr) : Prop :=
  opClass i ∈ [OpClass.commandWrite, .registerWrite, .timerWrite, .lowWrite, .unmappedWrite, .lowRead, .unmappedRead,
    .pulse, .sync, .construct, .destroy] ∨ i = .save

/-- A port operation and the port it names. -/
def NamesPort (i : Instr) (p : PortIx) : Prop :=
  i = .bf p ∨ (∃ v, i = .pw p v) ∨ i = .prLow p ∨ i = .prHigh p ∨ (∃ mask aux, i = .input p mask aux) ∨
    (∃ m, i = .mode p m)

/-- Two different buttons, as the opposing pairs are: Left and Right, Up and Down, wherever their bits stand
(30_encoding.md R104). -/
def IsAxisPair (A B : Byte) : Prop := ∃ i j : Fin 8, i ≠ j ∧ A = btnMask i ∧ B = btnMask j

/-- A serial read of port `p` (with its strobe low): the port operation, or the bus read routed to it (43_controller.md
R191, R194). -/
def IsSerialRead (p : PortIx) (i : Instr) : Bool :=
  i == .prLow p || (i == .rdPad0 && p == 0) || (i == .rdPad1 && p == 1)

/-- An operation that may stand in a read-out of port `p`: all but those that write its strobe or load its shift register,
which are a strobe-port write, a reset and a load (43_controller.md R192, R215). The serial reads are among them. -/
def InReadOut (p : PortIx) (i : Instr) : Prop :=
  opClass i ≠ .strobeWrite ∧ opClass i ≠ .reset ∧ (∀ snap tag, i ≠ .load snap tag) ∧ ∀ v, i ≠ .pw p v

end Sys2Proof.Machine
end

