-- ==== Sys2Proof/Certificates/Slice0/Obligations.lean ====
section
/-! DEFINITION. The statements for the provers. A statement that rests on a decision of the spec (D<n>) or on a choice of
the model (log <n>) says so in its docstring. -/

open Sys2Proof Sys2Proof.Machine

/-! ### Encoding -/

/-- Words written out from 30_encoding.md R91 to R93 (the trace words of the spec, D26) decode to their rows. -/
def Obligations.TableWordsDecodeToTheirRows : Prop :=
  decodeTableWord 32 0x1080000D = some (.wrCmd 0x8000 0x0D) ∧
  decodeTableWord 32 0x10A00012 = some (.setBank0 0xA000 0x12) ∧
  decodeTableWord 32 0x00601000 = some (.rdLow 0x6010) ∧
  decodeTableWord 32 0x1060105A = some (.wrLow 0x6010 0x5A) ∧
  decodeTableWord 32 0x10401601 = some (.wrStrobe 0x01) ∧
  decodeTableWord 32 0x00401700 = some .rdPad1 ∧
  decodeTableWord 32 0x20000000 = some .clk ∧
  decodeTableWord 32 0x31000000 = some .rstHard ∧
  decodeTableWord 32 0x62000001 = some (.pw 2 0x01) ∧
  decodeTableWord 32 0xC00001C9 = some (.input 0 0xC9 true) ∧
  decodeTableWord 32 0xD1000003 = some (.mode 1 .latestPress) ∧
  decodeTableWord 32 0xD0000006 = none ∧
  decodeTableWord 32 0xE0000000 = none

/-- Every well-formed operation that the decoding context selects is read back from its own trace item, every operand at
every value, for every consistent choice of the parameters and whatever is bound (D26; the context is the bindings and what
the opcode table's `state` fields name; consistent: log 30). -/
def Obligations.DecodingAnEncodedInstructionGivesItBack : Prop :=
  ∀ (c : DecodeCtx) (i : Instr) (it : TraceItem),
    c.params.wf = true → i.wf c.params c.nports = true → i.selectedBy c = true → encode c.params i = some it →
    decode c it = .ok i

/-- The other direction: an item the decoder accepts is the encoding of what it gives, so no bit of it is ignored, and the
context selects it; the instruction is well formed (a Context's canonical form apart), a low-window, command-port or
data-port row under the bindings of no Board or of the reference board, which put it in its window (D26). -/
def Obligations.DecodedInstructionEncodesToItsItem : Prop :=
  ∀ (c : DecodeCtx) (it : TraceItem) (i : Instr), decode c it = .ok i →
    encode c.params i = some it ∧ i.selectedBy c = true ∧
    ((∀ ctx, i ≠ .new ctx) →
      (IsWindowWrite i ∨ (∃ a, i = .rdLow a) → c.bindings = [] ∨ c.bindings = referenceRanges c.params) →
      i.wf c.params c.nports = true)

/-- The trace words that are no operations are refused, whatever their separate operand (the list of 30_encoding.md R111,
D26), and so are the words with a separate operand missing, surplus or of the wrong kind (the model's choice, log 12). -/
def Obligations.WordsThatAreNoOperationsAreRefused : Prop :=
  ∀ (s : State) (it : TraceItem) (rest : List TraceItem), s.trace = it :: rest →
    (let k := wordKind it.word
     let sub := wordSub it.word
     let addr := wordAddr it.word
     let data := wordData it.word
     (k = 0xE ∨ k = 0xF) ∨
     (k = 0x3 ∧ 1 < sub.toNat) ∨
     (k = 0x4 ∧ 3 < sub.toNat) ∨
     ((k = 0x5 ∨ k = 0x6 ∨ k = 0x7 ∨ k = 0xC ∨ k = 0xD) ∧ s.ports.length ≤ sub.toNat) ∨
     (k = 0xD ∧ 5 < data.toNat) ∨
     ((k = 0x0 ∨ k = 0x1) ∧ sub ≠ 0) ∨
     (k = 0x0 ∧ data ≠ 0) ∨
     ((k = 0x2 ∨ k = 0x8 ∨ k = 0x9 ∨ k = 0xA ∨ k = 0xB) ∧ (sub ≠ 0 ∨ addr ≠ 0 ∨ data ≠ 0)) ∨
     ((k = 0x3 ∨ k = 0x4 ∨ k = 0x5 ∨ k = 0x7) ∧ (addr ≠ 0 ∨ data ≠ 0)) ∨
     ((k = 0x6 ∨ k = 0xD) ∧ addr ≠ 0) ∨
     (k = 0xC ∧ 1 < addr.toNat) ∨
     (k ≠ 0x9 ∧ k ≠ 0xA ∧ it.operand ≠ .none) ∨
     (k = 0x9 ∧ ∀ snap tag, it.operand ≠ .snapshot snap tag) ∨
     (k = 0xA ∧ ∀ ctx, it.operand ≠ .context ctx)) →
    ∃ why, step s = .refused (.notAnOperation why)

/-! ### The step -/

/-- A step decodes the head of the trace in the present state and is `exec` of it, the item taken off the trace; the item of
a well-formed, selected operation runs exactly that operation, for every consistent choice of the parameters (log 30); with
nothing pending a step leaves the state as it is (the model's choice, log 11). -/
def Obligations.StepRunsTheDecodedInstruction : Prop :=
  (∀ (s : State) (it : TraceItem) (rest : List TraceItem) (i : Instr), s.trace = it :: rest →
    decode s.decodeCtx it = .ok i → step s = exec i { s with trace := rest }) ∧
  (∀ (s : State) (it : TraceItem) (rest : List TraceItem) (i : Instr), s.trace = it :: rest →
    s.params.wf = true → encode s.params i = some it → i.wf s.params s.ports.length = true →
    i.selectedBy s.decodeCtx = true →
    step s = exec i { s with trace := rest }) ∧
  (∀ s : State, s.trace = [] → step s = .next s)

/-- Operations are taken in the order given, one per step, none merged, dropped or reordered: a step that answers leaves
exactly the rest of the trace. -/
def Obligations.StepTakesOperationsInOrder : Prop :=
  ∀ (s t : State) (it : TraceItem) (rest : List TraceItem), s.trace = it :: rest → step s = .next t → t.trace = rest

/-- At a cycle of the CPU bus, a step on a read word or a write word does what the framework's dispatch says, through the
bindings and the capability set of the active Board, or, where no binding has a handler, the controller ports
(40_dispatch.md R124, R125): in every state, whatever its bindings, and for every choice of the parameters, also one that
puts a controller address in a window (the routing of the controller ports rests on the spec's decision D22). -/
def Obligations.BusWordsFollowTheFrameworkDispatch : Prop :=
  ∀ (s : State) (rest : List TraceItem) (a : Addr) (v : Byte),
    (s.trace = plainItem 0x0 0 a 0 :: rest → step s = .next (dispatchRead a { s with trace := rest })) ∧
    (s.trace = plainItem 0x1 0 a v :: rest → step s = .next (dispatchWrite a v { s with trace := rest }))

/-! ### The reference board's registers -/

/-- WR.CMD loads the latch with the low nibble and changes nothing else (bits 7:4 ignored: D12). -/
def Obligations.CommandWriteLoadsTheLatch : Prop :=
  ∀ (s : State) (b : Board) (a : Addr) (v : Byte), s.board = some b → findWrite b.bindings a = some .commandPort →
    exec (.wrCmd a v) s = .next { s with
      board := some { b with latch := v.extractLsb' 0 4 }
      inCycle := true
      result := .none
      calls := [] }

/-- SET.BANK0 to SET.BANK7: the data write with the latch 0 to 7 stores the byte and tells the collaborator. -/
def Obligations.BankSelectWritesStoreAndTell : Prop :=
  (RowOfLatch 0x0 .setBank0 ∧ StoresRegister .setBank0 0x0) ∧
  (RowOfLatch 0x1 .setBank1 ∧ StoresRegister .setBank1 0x1) ∧
  (RowOfLatch 0x2 .setBank2 ∧ StoresRegister .setBank2 0x2) ∧
  (RowOfLatch 0x3 .setBank3 ∧ StoresRegister .setBank3 0x3) ∧
  (RowOfLatch 0x4 .setBank4 ∧ StoresRegister .setBank4 0x4) ∧
  (RowOfLatch 0x5 .setBank5 ∧ StoresRegister .setBank5 0x5) ∧
  (RowOfLatch 0x6 .setBank6 ∧ StoresRegister .setBank6 0x6) ∧
  (RowOfLatch 0x7 .setBank7 ∧ StoresRegister .setBank7 0x7)

/-- SET.LOWCTL0, SET.LOWCTL1, SET.REGA, SET.REGB, SET.REGC: stored whole and told to the collaborator (D10, D11). -/
def Obligations.LowControlAndSpareWritesStoreAndTell : Prop :=
  (RowOfLatch 0x8 .setLowCtl0 ∧ StoresRegister .setLowCtl0 0x8) ∧
  (RowOfLatch 0x9 .setLowCtl1 ∧ StoresRegister .setLowCtl1 0x9) ∧
  (RowOfLatch 0xA .setRegA ∧ StoresRegister .setRegA 0xA) ∧
  (RowOfLatch 0xB .setRegB ∧ StoresRegister .setRegB 0xB) ∧
  (RowOfLatch 0xC .setRegC ∧ StoresRegister .setRegC 0xC)

/-- SET.IRQCTL copies `D_EN_BIT` to the enable and `D_SRC_BIT` to the source, keeps the count, and releases the request
exactly when the enable bit is 0; SET.CNTLO and SET.CNTHI replace one byte of the count, keep the other, and release the
request (bit positions D7, release D8). -/
def Obligations.TimerRegisterWritesSetTheirFieldsAndRelease : Prop :=
  RowOfLatch 0xD .setIrqCtl ∧ RowOfLatch 0xE .setCntLo ∧ RowOfLatch 0xF .setCntHi ∧
  ∀ (s : State) (b : Board) (a : Addr) (v : Byte), s.board = some b → findWrite b.bindings a = some .dataPort →
    exec (.setIrqCtl a v) s = .next { s with
      board := some { b with
        timer := { b.timer with enabled := v.getLsbD s.params.enBit, src := v.getLsbD s.params.srcBit }
        irqReq := b.irqReq && v.getLsbD s.params.enBit }
      irqLine := s.irqLine && v.getLsbD s.params.enBit
      inCycle := true
      result := .none
      calls := [] } ∧
    exec (.setCntLo a v) s = .next { s with
      board := some { b with
        timer := { b.timer with count := b.timer.count.extractLsb' 8 8 ++ v }
        irqReq := false }
      irqLine := false
      inCycle := true
      result := .none
      calls := [] } ∧
    exec (.setCntHi a v) s = .next { s with
      board := some { b with
        timer := { b.timer with count := v ++ b.timer.count.extractLsb' 0 8 }
        irqReq := false }
      irqLine := false
      inCycle := true
      result := .none
      calls := [] }

/-- A data write reaches the register the latch holds and no other, and the latch does not advance: two data writes in a row
reach the same register. -/
def Obligations.DataWriteReachesTheLatchedRegister : Prop :=
  ∀ (s t : State) (b : Board) (a : Addr) (v : Byte), s.board = some b → findWrite b.bindings a = some .dataPort →
    exec (dataRow b.latch a v) s = .next t →
    ∃ b', t.board = some b' ∧ b'.latch = b.latch ∧
      (∀ i : RegIx, b'.regs[i] = if i.val = b.latch.toNat then v else b.regs[i]) ∧
      b'.timer.enabled = (if b.latch = 0xD then irqEnBit s.params v else b.timer.enabled) ∧
      b'.timer.src = (if b.latch = 0xD then irqSrcBit s.params v else b.timer.src) ∧
      countLow b'.timer.count = (if b.latch = 0xE then v else countLow b.timer.count) ∧
      countHigh b'.timer.count = (if b.latch = 0xF then v else countHigh b.timer.count)

/-- A second write of the same byte through the same command-port or data-port row changes nothing but the outputs
(what 20_memory.md section 4 says of these writes; for register D a request kept stays kept). -/
def Obligations.CommandAndDataWritesAreIdempotent : Prop :=
  ∀ (i : Instr) (s t : State), IsWindowWrite i → exec i s = .next t → exec i t = .next t

/-- Every bus access inside the reference board's windows is unmapped while no Board is active: a write changes nothing, a
read returns `OPEN_BUS`; a pulse is not fired; the request is 0 (D30). -/
def Obligations.WithoutABoardEverythingIsUnmapped : Prop :=
  ∀ s : State, s.board = none →
    (∀ i, IsWindowWrite i → exec i s = .next { s with inCycle := true, result := .none, calls := [] }) ∧
    (∀ a, exec (.rdLow a) s = .next { s with inCycle := true, result := .data Config.openBus, calls := [] }) ∧
    (∀ a, exec (.rdCmdData a) s = .next { s with inCycle := true, result := .data Config.openBus, calls := [] }) ∧
    exec .clk s = .next { s with inCycle := false, result := .fired false, calls := [] } ∧
    s.irqReq = false

/-! ### The low window and unmapped accesses -/

/-- RD.LOW returns the byte the low-window mode of register 8 exposes and changes no state: the ROM page modulo the page
count, the work RAM, or `OPEN_BUS` (the default collaborator, D10, D31, D34; log 21). Where the rule names no byte of the
ROM it returns some byte the spec does not state (log 9); the page count is that of the whole pages (log 31). -/
def Obligations.LowWindowReadReturnsTheExposedByte : Prop :=
  ∀ (s : State) (b : Board) (a : Addr), s.board = some b → findRead b.bindings a = some .lowPage →
    ∃ v : Byte,
      exec (.rdLow a) s = .next { s with inCycle := true, result := .data v, calls := [.lowRead a] } ∧
      ((b.regs[8]).getLsbD 6 = false →
        let npages := b.ctx.programROM.size / s.params.pageSize
        let index := ((b.regs[8]).extractLsb' 0 6).toNat % npages * s.params.pageSize + lowOffset s.params a
        npages ≠ 0 → index < b.ctx.programROM.size → v = romByte b.ctx.programROM index) ∧
      ((b.regs[8]).getLsbD 6 = true → (b.regs[8]).getLsbD 7 = true → b.ctx.ramPresenceFlags.workRam = true →
        v = ramByte s.wram (lowOffset s.params a)) ∧
      ((b.regs[8]).getLsbD 6 = true → (b.regs[8]).getLsbD 7 = false → v = Config.openBus) ∧
      ((b.regs[8]).getLsbD 6 = true → b.ctx.ramPresenceFlags.workRam = false → v = Config.openBus)

/-- WR.LOW stores the byte at its offset of the work RAM when RAM is selected, enabled and present, and is a no-op
otherwise; every other byte, the latch, the registers, the timer and the request stay (the default collaborator, D31;
log 21). -/
def Obligations.LowWindowWriteStoresOneByteOrNothing : Prop :=
  ∀ (s : State) (b : Board) (a : Addr) (v : Byte), s.board = some b → findWrite b.bindings a = some .lowRam →
    ∃ m : Memory,
      exec (.wrLow a v) s = .next { s with wram := m, inCycle := true, result := .none, calls := [.lowWrite a v] } ∧
      ((b.regs[8]).getLsbD 6 = true ∧ (b.regs[8]).getLsbD 7 = true ∧ b.ctx.ramPresenceFlags.workRam = true →
        ramByte m (lowOffset s.params a) = v ∧ ∀ off, off ≠ lowOffset s.params a → ramByte m off = ramByte s.wram off) ∧
      (¬((b.regs[8]).getLsbD 6 = true ∧ (b.regs[8]).getLsbD 7 = true ∧ b.ctx.ramPresenceFlags.workRam = true) →
        m = s.wram)

/-- In a state that meets the invariant and shows work RAM in the low window, a byte written there is the byte read back,
and any other address of the window reads as before (42_reference_board.md section 4; D2, D10). -/
def Obligations.LowWindowReadsBackWhatWasWritten : Prop :=
  ∀ (s t u : State) (b : Board) (a a' : Addr) (v : Byte), s.Inv → s.board = some b → lowMode (b.reg 8) = .ram →
    b.ctx.ramPresenceFlags.workRam = true → inLowWindow s.params a = true → inLowWindow s.params a' = true →
    exec (.wrLow a v) s = .next t → exec (.rdLow a') t = .next u →
    u.result = .data (if a' = a then v else collLowRead s.params b s.wram a')

/-- RD.CMDDATA and RD.UNMAPPED return `OPEN_BUS` and change no state (D3, D5). -/
def Obligations.UnclaimedReadsReturnOpenBus : Prop :=
  ∀ (s : State) (a : Addr),
    exec (.rdCmdData a) s = .next { s with inCycle := true, result := .data Config.openBus, calls := [] } ∧
    exec (.rdUnmapped a) s = .next { s with inCycle := true, result := .data Config.openBus, calls := [] }

/-- A write that no binding and no controller port claims, whatever row its address and the latch decode it to, and every
WR.UNMAPPED, completes and changes no state: of the model's own fields only `inCycle` and the outputs are touched. -/
def Obligations.UnmappedWriteIsANoOp : Prop :=
  ∀ (s : State) (a : Addr) (v : Byte),
    (∀ latch, s.boundWrite a = none → a ≠ s.params.padStrobeAddr → ∃ c : Bool,
      exec (writeRow { s.decodeCtx with latch := latch } a v) s = .next { s with inCycle := c, result := .none, calls := [] }) ∧
    ∃ c : Bool, exec (.wrUnmapped a v) s = .next { s with inCycle := c, result := .none, calls := [] }

/-- No operation but WR.LOW changes the work RAM, and WR.LOW changes no byte but the one at its offset: for every other
operation every byte of memory reads as before. That NEW, DEL and LOAD keep it too is the model's choice (log 8). -/
def Obligations.OnlyLowWindowWritesChangeTheRam : Prop :=
  ∀ (i : Instr) (s t : State), exec i s = .next t →
    (∀ off, (∀ a v, i = .wrLow a v → off ≠ lowOffset s.params a) → ramByte t.wram off = ramByte s.wram off) ∧
    ((∀ a v, i ≠ .wrLow a v) → t.wram = s.wram)

/-! ### The timer and the request -/

/-- CLK calls the variant's policy once, returns whether it fired, sets the request and raises the line exactly when it
did, and never clears it; with no Board active it changes nothing and returns not fired. -/
def Obligations.ClockPulseSurfacesThePolicyResult : Prop :=
  (∀ (s : State) (b : Board), s.board = some b → ∃ c : Bool,
    exec .clk s = .next { s with
      board := some { b with
        timer := ((b.variant.caps s.params).policy.clock b.timer).1
        irqReq := ((b.variant.caps s.params).policy.clock b.timer).2 || b.irqReq }
      irqLine := ((b.variant.caps s.params).policy.clock b.timer).2 || s.irqLine
      inCycle := c
      result := .fired ((b.variant.caps s.params).policy.clock b.timer).2
      calls := [] }) ∧
  (∀ s : State, s.board = none → ∃ c : Bool,
    exec .clk s = .next { s with inCycle := c, result := .fired false, calls := [] })

/-- The reference board counts one down while enabled with its source on, and fires exactly on the step from 0 to 0xFFFF;
otherwise the count holds and nothing fires (the source bit is the spec's reading, D7). -/
def Obligations.ReferencePolicyCountsDownAndFires : Prop :=
  ∀ (c : Params) (t : Timer), (Variant.reference.caps c).policy.clock t =
    if t.enabled = true ∧ t.src = true then
      ({ t with count := BitVec.ofNat 16 (t.count.toNat + 65535) }, decide (t.count.toNat = 0))
    else (t, false)

/-- From count C, enabled with its source on, C pulses among unrelated bus accesses all return false and leave the request
as it was, and the next pulse returns true, asserts the request, raises the line and leaves 0xFFFF (41_timer.md section 3;
with the source bit of D7). -/
def Obligations.TimerFiresOnThePulseAfterItsCount : Prop :=
  ∀ (s : State) (b : Board) (is : List Instr), s.board = some b → b.timer.enabled = true → b.timer.src = true →
    (∀ i ∈ is, IsPulse i = true ∨ IsUnrelated i) → is.countP IsPulse = b.timer.count.toNat →
    (∀ pre, pre ++ [Instr.clk] <+: is → ∃ t, execAll (pre ++ [.clk]) s = .next t ∧ t.result = .fired false) ∧
    ∃ t, execAll is s = .next t ∧ t.irqReq = s.irqReq ∧
      ∃ (u : State) (b' : Board), exec .clk t = .next u ∧ u.result = .fired true ∧ u.irqReq = true ∧ u.irqLine = true ∧
        u.board = some b' ∧ b'.timer.count = 0xFFFF

/-- The complete list of what changes the request: a pulse that fires sets it; SET.IRQCTL with `EN` = 0, SET.CNTLO,
SET.CNTHI, both resets and DEL clear it; LOAD replaces it. No read and no other operation changes it
(42_reference_board.md section 6). -/
def Obligations.OnlyListedOperationsChangeTheRequest : Prop :=
  ∀ (i : Instr) (s t : State), exec i s = .next t → t.irqReq ≠ s.irqReq →
    (i = .clk ∧ t.irqReq = true ∧ t.result = .fired true) ∨
    (∃ a v, i = .setIrqCtl a v ∧ irqEnBit s.params v = false ∧ t.irqReq = false) ∨
    (∃ a v, (i = .setCntLo a v ∨ i = .setCntHi a v) ∧ t.irqReq = false) ∨
    ((i = .rstSoft ∨ i = .rstHard ∨ i = .del) ∧ t.irqReq = false) ∨
    (∃ snap tag, i = .load snap tag)

/-- Who writes the Board's registers: the latch only WR.CMD; a stored register only a data-port write; enable and source
only SET.IRQCTL; the count only CLK, SET.CNTLO and SET.CNTHI; a hard reset and a load besides (10_state.md sections 1
and 3). -/
def Obligations.BoardRegistersHaveOnlyTheirListedWriters : Prop :=
  ∀ (i : Instr) (s t : State) (b b' : Board), exec i s = .next t → s.board = some b → t.board = some b' →
    i ≠ .rstHard → (∀ snap tag, i ≠ .load snap tag) →
    ((∀ a v, i ≠ .wrCmd a v) → b'.latch = b.latch) ∧
    ((∀ n a v, i ≠ dataRow n a v) → b'.regs = b.regs) ∧
    ((∀ a v, i ≠ .setIrqCtl a v) → b'.timer.enabled = b.timer.enabled ∧ b'.timer.src = b.timer.src) ∧
    (i ≠ .clk → (∀ a v, i ≠ .setCntLo a v ∧ i ≠ .setCntHi a v) → b'.timer.count = b.timer.count)

/-! ### The framework -/

/-- NEW while a Board is active is refused (D30). With the supported selector and no Board active it makes the reference
Board, its three windows bound, in the hard-reset state, the collaborator told of every register, the line low (reset
values and windows: D2, D13; line: log 26); with parameters that invert a window or make two windows meet, the variant is
ill-formed and the construction is refused (D4). -/
def Obligations.ConstructionGivesTheResetBoard : Prop :=
  (∀ (s : State) (ctx : Context) (b : Board), s.board = some b → exec (.new ctx) s = .refused .boardActive) ∧
  (∀ (s : State) (ctx : Context), s.board = none → ctx.variantSelector = .reference →
    (let c := s.params
     c.lowHi < c.lowLo ∨ c.cmdHi < c.cmdLo ∨ c.dataHi < c.dataLo ∨ (c.lowLo ≤ c.cmdHi ∧ c.cmdLo ≤ c.lowHi) ∨
       (c.lowLo ≤ c.dataHi ∧ c.dataLo ≤ c.lowHi) ∨ (c.cmdLo ≤ c.dataHi ∧ c.dataLo ≤ c.cmdHi)) →
    exec (.new ctx) s = .refused .illFormedRange) ∧
  ∀ (s : State) (ctx : Context), s.board = none → ctx.variantSelector = .reference → s.params.windowsApart = true →
    exec (.new ctx) s = .next { s with
      board := some
        { ctx := ctx
          variant := .reference
          bindings := [⟨s.params.lowLo, s.params.lowHi, .both .lowPage .lowRam⟩,
            ⟨s.params.cmdLo, s.params.cmdHi, .writes .commandPort⟩,
            ⟨s.params.dataLo, s.params.dataHi, .writes .dataPort⟩]
          latch := 0
          regs := Vector.replicate 13 s.params.regReset
          timer := { enabled := false, src := false, count := 0 }
          irqReq := false }
      construction := none
      irqLine := false
      banks := Vector.replicate 13 s.params.regReset
      result := .none
      calls := (List.finRange 13).map fun i => .bankSelect i s.params.regReset }

/-- NEW with an unsupported selector returns `UnsupportedVariant` with the offending selector, and no state changes: no
Board is active. No other operation returns it. -/
def Obligations.UnsupportedVariantIsReported : Prop :=
  (∀ (s : State) (ctx : Context) (n : Nat), s.board = none → ctx.variantSelector = .other n →
    exec (.new ctx) s = .next { s with result := .error (.unsupportedVariant (.other n)), calls := [] }) ∧
  (∀ (i : Instr) (s t : State) (v : VariantSelector), exec i s = .next t → t.result = .error (.unsupportedVariant v) →
    (∃ ctx, i = .new ctx ∧ ctx.variantSelector = v) ∧ v ≠ .reference ∧ t.board = none)

/-- RANGE inside a construction binds the range when its bounds are ordered and no binding of a shared direction overlaps
it, and is refused otherwise; after construction it is refused (D4; log 15). -/
def Obligations.RangeBindsOnlyInsideAConstruction : Prop :=
  (∀ (s : State) (bs : List Binding) (low high : Addr) (h : Handler), s.construction = some bs → low ≤ high →
    (∀ x ∈ bs, handlersClash x.handler h = true → x.high < low ∨ high < x.low) →
    exec (.range low high h) s = .next { s with
      construction := some (bs ++ [⟨low, high, h⟩])
      result := .none
      calls := [] }) ∧
  (∀ (s : State) (bs : List Binding) (low high : Addr) (h : Handler), s.construction = some bs →
    (high < low ∨ ∃ x ∈ bs, handlersClash x.handler h = true ∧ x.low ≤ high ∧ low ≤ x.high) →
    exec (.range low high h) s = .refused .illFormedRange) ∧
  (∀ (s : State) (low high : Addr) (h : Handler), s.construction = none →
    exec (.range low high h) s = .refused .noConstruction)

/-- DEL leaves no Board and the line low, and no controller state changes; with no Board active it is a no-op (D30). -/
def Obligations.DestructionReleasesTheLine : Prop :=
  (∀ (s : State) (b : Board), s.board = some b →
    exec .del s = .next { s with board := none, irqLine := false, result := .none, calls := [] }) ∧
  (∀ s : State, s.board = none → exec .del s = .next { s with result := .none, calls := [] })

/-- RST.HARD: the Board's registers at their defaults, its Context, variant and bindings kept, the collaborator told of
every register in ascending order, the line low, every port at its reset values with its mode and lines kept
(D13, D21; no cycle is left open: log 14). -/
def Obligations.HardResetRestoresTheDefaults : Prop :=
  (∀ (s : State) (b : Board), s.board = some b →
    exec .rstHard s = .next { s with
      board := some { b with
        latch := 0
        regs := Vector.replicate 13 s.params.regReset
        timer := { enabled := false, src := false, count := 0 }
        irqReq := false }
      ports := s.ports.map fun q =>
        { Port.fresh with mode := q.mode, buttonsIn := q.buttonsIn, auxIn := q.auxIn }
      aux := false
      irqLine := false
      banks := Vector.replicate 13 s.params.regReset
      inCycle := false
      result := .none
      calls := (List.finRange 13).map fun i => .bankSelect i s.params.regReset }) ∧
  (∀ s : State, s.board = none →
    exec .rstHard s = .next { s with
      ports := s.ports.map fun q =>
        { Port.fresh with mode := q.mode, buttonsIn := q.buttonsIn, auxIn := q.auxIn }
      aux := false
      inCycle := false
      result := .none
      calls := [] })

/-- RST.SOFT: only the request is dropped on the Board; every port as for a hard reset (D13, D21). -/
def Obligations.SoftResetPreservesTheBoard : Prop :=
  (∀ (s : State) (b : Board), s.board = some b →
    exec .rstSoft s = .next { s with
      board := some { b with irqReq := false }
      ports := s.ports.map fun q =>
        { Port.fresh with mode := q.mode, buttonsIn := q.buttonsIn, auxIn := q.auxIn }
      aux := false
      irqLine := false
      result := .none
      calls := [] }) ∧
  (∀ s : State, s.board = none →
    exec .rstSoft s = .next { s with
      ports := s.ports.map fun q =>
        { Port.fresh with mode := q.mode, buttonsIn := q.buttonsIn, auxIn := q.auxIn }
      aux := false
      result := .none
      calls := [] })

/-- On a live Board of a state that meets the invariant, RST.HARD gives exactly the Board state that DEL and then NEW with
the same Context give; the two differ only in the controller ports (and in the open cycle, log 14)
(70_reset_and_hazards.md section 1). -/
def Obligations.HardResetIsReconstruction : Prop :=
  ∀ (s : State) (b : Board), s.Inv → s.board = some b →
    ∃ t u, exec .rstHard s = .next t ∧ execAll [.del, .new b.ctx] s = .next u ∧
      t = { u with ports := t.ports, aux := t.aux, inCycle := t.inCycle }

/-- Two states that agree on what no hard reset touches are the same state after RST.HARD, whatever else they held: what
follows is a function of the trace alone (40_dispatch.md section 5). -/
def Obligations.HardResetForgetsThePast : Prop :=
  ∀ s₁ s₂ : State, s₁.params = s₂.params →
    s₁.board.map (fun b => (b.ctx, b.variant, b.bindings)) = s₂.board.map (fun b => (b.ctx, b.variant, b.bindings)) →
    s₁.construction = s₂.construction →
    s₁.ports.map (fun q => (q.mode, q.buttonsIn, q.auxIn)) = s₂.ports.map (fun q => (q.mode, q.buttonsIn, q.auxIn)) →
    s₁.wram = s₂.wram → s₁.trace = s₂.trace →
    (s₁.board = none → s₁.banks = s₂.banks ∧ s₁.irqLine = s₂.irqLine) →
    exec .rstHard s₁ = exec .rstHard s₂

/-- SYNC at every checkpoint changes no state: the reference board implements it as a no-op, and it never changes
controller state. -/
def Obligations.SyncChangesNothing : Prop :=
  ∀ s : State,
    exec .syncFrameStart s = .next { s with result := .none, calls := [] } ∧
    exec .syncFrameEnd s = .next { s with result := .none, calls := [] } ∧
    exec .syncAddrEdge s = .next { s with result := .none, calls := [] } ∧
    exec .syncStrobeEdge s = .next { s with result := .none, calls := [] }

/-- Totality: reads, writes, the pulse, both resets and sync always complete, return a value where they have one, and raise
nothing, in every state. -/
def Obligations.BusClockResetAndSyncAlwaysComplete : Prop :=
  ∀ (i : Instr) (s : State), IsBusWrite i ∨ IsBusRead i ∨ IsResetOrSync i ∨ i = .clk →
    ∃ t, exec i s = .next t ∧ (∀ e, t.result ≠ .error e) ∧
      (IsBusRead i → ∃ v, t.result = .data v) ∧ (i = .clk → ∃ b, t.result = .fired b)

/-- Only NEW and LOAD report an error, and an operation that reports one changes no state but its outputs. -/
def Obligations.ErrorsChangeNoState : Prop :=
  ∀ (i : Instr) (s t : State) (e : Error), exec i s = .next t → t.result = .error e →
    t = { s with result := .error e, calls := [] } ∧
    ((∃ ctx, i = .new ctx ∧ e = .unsupportedVariant ctx.variantSelector) ∨
      (∃ snap tag, i = .load snap tag ∧ ∃ g f, e = .formatError g f))

/-- The bindings of a Board that stays active are changed by no operation, nor are its variant and the Context the model
keeps in it (log 10); a construction of the reference board binds the three windows the parameters give (D2); no operation
changes a parameter (the model holds them in its state, log 1). -/
def Obligations.BindingsAndContextAreFixed : Prop :=
  (∀ (i : Instr) (s t : State) (b b' : Board), exec i s = .next t → s.board = some b → t.board = some b' →
    b'.bindings = b.bindings ∧ b'.ctx = b.ctx ∧ b'.variant = b.variant) ∧
  (∀ (i : Instr) (s t : State), exec i s = .next t → t.params = s.params) ∧
  (∀ (s t : State) (ctx : Context) (b : Board), exec (.new ctx) s = .next t → t.board = some b →
    b.ctx = ctx ∧ b.bindings = [⟨s.params.lowLo, s.params.lowHi, .both .lowPage .lowRam⟩,
      ⟨s.params.cmdLo, s.params.cmdHi, .writes .commandPort⟩, ⟨s.params.dataLo, s.params.dataHi, .writes .dataPort⟩])

/-! ### The controller ports -/

/-- BF on a present port clears the shared auxiliary bit and changes nothing else. -/
def Obligations.BeginFrameClearsTheAuxiliaryBit : Prop :=
  ∀ (s : State) (p : PortIx) (q : Port), s.ports[p.val]? = some q →
    exec (.bf p) s = .next { s with aux := false, result := .none, calls := [] }

/-- PW on a present port: the strobe becomes bit 0 of the byte; on a falling edge, and only then, the lines are sampled once
and filtered, the filtered mask is latched, the sample becomes the previous one, the auxiliary line is ORed into the shared
bit, and the shift register is loaded with the complement of the latched mask (the filter: D20; the sample: D19; the
auxiliary line: D18). -/
def Obligations.StrobeWritePollsOnTheFallingEdge : Prop :=
  ∀ (s : State) (p : PortIx) (q : Port) (v : Byte), s.ports[p.val]? = some q →
    (q.strobe = true → v.getLsbD 0 = false →
      exec (.pw p v) s = .next { s with
        ports := s.ports.set p.val
          { q with
            strobe := false
            sr := ~~~(filterMask s.params q.mode q.buttonsIn q.prevRaw q.hmask q.vmask).out
            state := (filterMask s.params q.mode q.buttonsIn q.prevRaw q.hmask q.vmask).out
            hmask := (filterMask s.params q.mode q.buttonsIn q.prevRaw q.hmask q.vmask).hmask
            vmask := (filterMask s.params q.mode q.buttonsIn q.prevRaw q.hmask q.vmask).vmask
            prevRaw := q.buttonsIn }
        aux := s.aux || q.auxIn
        result := .none
        calls := [] }) ∧
    (¬(q.strobe = true ∧ v.getLsbD 0 = false) →
      exec (.pw p v) s = .next { s with
        ports := s.ports.set p.val { q with strobe := v.getLsbD 0 }
        result := .none
        calls := [] })

/-- PR.LOW on a present port returns the inverted low bit, with the auxiliary bit at `AUX_POS` on `AUX_PORT` only, and
shifts the register right by one, filling with the complement of `K` (D16, D17). -/
def Obligations.SerialReadReturnsTheInvertedLowBit : Prop :=
  ∀ (s : State) (p : PortIx) (q : Port), s.ports[p.val]? = some q →
    exec (.prLow p) s = .next { s with
      ports := s.ports.set p.val { q with sr := ~~~Config.padExhausted ++ q.sr.extractLsb' 1 7 }
      result := .data ((if q.sr.getLsbD 0 then 0x00 else 0x01) |||
        (if p = s.params.auxPort ∧ s.aux = true then 1#8 <<< s.params.auxPos.val else 0x00))
      calls := [] }

/-- PR.HIGH on a present port polls and returns the first button of the new latched mask, without the auxiliary bit; the
shift register is neither loaded nor shifted (D17, D19). -/
def Obligations.StrobeHighReadPolls : Prop :=
  ∀ (s : State) (p : PortIx) (q : Port), s.ports[p.val]? = some q →
    exec (.prHigh p) s = .next { s with
      ports := s.ports.set p.val
        { q with
          state := (filterMask s.params q.mode q.buttonsIn q.prevRaw q.hmask q.vmask).out
          hmask := (filterMask s.params q.mode q.buttonsIn q.prevRaw q.hmask q.vmask).hmask
          vmask := (filterMask s.params q.mode q.buttonsIn q.prevRaw q.hmask q.vmask).vmask
          prevRaw := q.buttonsIn }
      aux := s.aux || q.auxIn
      result := .data (if (filterMask s.params q.mode q.buttonsIn q.prevRaw q.hmask q.vmask).out.getLsbD 0 then 0x01 else 0x00)
      calls := [] }

/-- IN drives the lines of a present port; MODE sets its filter mode and clears both resolution masks; nothing else changes
(D19, D27). -/
def Obligations.InputAndModeWriteTheirOwnFields : Prop :=
  ∀ (s : State) (p : PortIx) (q : Port), s.ports[p.val]? = some q →
    (∀ mask aux, exec (.input p mask aux) s = .next { s with
      ports := s.ports.set p.val { q with buttonsIn := mask, auxIn := aux }
      result := .none
      calls := [] }) ∧
    (∀ m, exec (.mode p m) s = .next { s with
      ports := s.ports.set p.val { q with mode := m, hmask := 0, vmask := 0 }
      result := .none
      calls := [] })

/-- A port operation on a port at or above `NPORTS` is refused (D22). -/
def Obligations.AbsentPortsAreRefused : Prop :=
  ∀ (s : State) (i : Instr) (p : PortIx), NamesPort i p → s.ports.length ≤ p.val →
    exec i s = .refused (.portAbsent p)

/-- WR.STROBE does to every present port what PW does to it, and the shared bit collects the auxiliary lines of the ports
that polled (routing: D22). -/
def Obligations.BusStrobeWriteReachesEveryPort : Prop :=
  ∀ (s : State) (v : Byte), ∃ t, exec (.wrStrobe v) s = .next t ∧
    (∀ (p : PortIx) (q : Port), s.ports[p.val]? = some q →
      ∃ u, exec (.pw p v) s = .next u ∧ t.ports[p.val]? = u.ports[p.val]?) ∧
    t.ports.length = s.ports.length ∧
    t.aux = (s.aux || (s.ports.any fun q => q.strobe && !(v.getLsbD 0) && q.auxIn)) ∧
    t = { s with ports := t.ports, aux := t.aux, inCycle := true, result := .none, calls := [] }

/-- RD.PAD0 and RD.PAD1 are the data-port read of their port, picked by its strobe; when the port is not present the read
is unmapped (routing: D22). -/
def Obligations.BusPadReadsFollowTheStrobe : Prop :=
  ∀ (s : State) (r : Instr) (p : PortIx), ((r = .rdPad0 ∧ p = 0) ∨ (r = .rdPad1 ∧ p = 1)) →
    (∀ q, s.ports[p.val]? = some q →
      ∃ t, exec (if q.strobe then .prHigh p else .prLow p) s = .next t ∧ exec r s = .next { t with inCycle := true }) ∧
    (s.ports[p.val]? = none →
      exec r s = .next { s with inCycle := true, result := .data Config.openBus, calls := [] })

/-- After a falling edge, reads 1 to 8 return the bits 0 to 7 of the mask latched by that edge in bit 0 of the result, and
every later read returns `K` there, whatever stands between the reads: changes of the lines and of the filter mode, polls,
accesses to the other ports and to the Board, all but a strobe-port write, a reset and a load (43_controller.md section 3;
`K` is a free value, D16; the auxiliary bit stands at another place, log 30). Reads of the port and changes of its lines
always complete, in every order. -/
def Obligations.ReadOutEnumeratesTheButtonsThenExhausts : Prop :=
  ∀ (s : State) (p : PortIx) (q : Port) (v : Byte) (is : List Instr), s.params.wf = true →
    s.ports[p.val]? = some q → q.strobe = true → v.getLsbD 0 = false →
    (∀ t, (∀ i ∈ is, InReadOut p i) → execAll (.pw p v :: is) s = .next t →
      ∃ u r, exec (.prLow p) t = .next u ∧ u.result = .data r ∧
        r.getLsbD 0 =
          if is.countP (IsSerialRead p) < 8 then
            (filterMask s.params q.mode q.buttonsIn q.prevRaw q.hmask q.vmask).out.getLsbD (is.countP (IsSerialRead p))
          else Config.padExhausted.getLsbD 0) ∧
    ((∀ i ∈ is, i = .prLow p ∨ ∃ mask aux, i = .input p mask aux) → ∃ t, execAll (.pw p v :: is) s = .next t)

/-- A port operation on one port changes no other port, no Board, no line, no memory: of the rest only the shared auxiliary
bit and the outputs (D17, D18). -/
def Obligations.PortsAreIndependentButForTheAuxiliaryBit : Prop :=
  ∀ (i : Instr) (s t : State) (p : PortIx), NamesPort i p → exec i s = .next t →
    (∀ k, k ≠ p.val → t.ports[k]? = s.ports[k]?) ∧ t.ports.length = s.ports.length ∧
    t = { s with ports := t.ports, aux := t.aux, result := t.result, calls := [] }

/-- Board operations, the pulse, sync, save, construction and destruction write no controller state
(43_controller.md section 3). -/
def Obligations.BoardOperationsLeaveTheControllersAlone : Prop :=
  ∀ (i : Instr) (s t : State), IsBoardOp i → exec i s = .next t → t.ports = s.ports ∧ t.aux = s.aux

/-- Only MODE changes a filter mode, only IN changes the input lines, and no operation changes the number of ports
(10_state.md sections 2 and 4). -/
def Obligations.ModesAndLinesAreHostControlled : Prop :=
  ∀ (i : Instr) (s t : State), exec i s = .next t →
    t.ports.length = s.ports.length ∧
    ((∀ p m, i ≠ .mode p m) → t.ports.map Port.mode = s.ports.map Port.mode) ∧
    ((∀ p m x, i ≠ .input p m x) →
      t.ports.map (fun q => (q.buttonsIn, q.auxIn)) = s.ports.map (fun q => (q.buttonsIn, q.auxIn)))

/-! ### The filter -/

/-- In neutral mode both bits of an opposing pair are cleared when both are set; otherwise the raw directions pass; nothing
is remembered. -/
def Obligations.NeutralModeCancelsOpposites : Prop :=
  ∀ A B raw prev m : Byte, IsAxisPair A B →
    axis .neutral raw prev m A B = (if raw &&& (A ||| B) = A ||| B then 0 else raw &&& (A ||| B), 0)

/-- The four press-tracking modes and `OFF` on one axis of any two different buttons, case by case: nothing held; one
direction `X` held; both held with a single press edge, or without one; remembered winner `m` none or one of the pair
(the table of 43_controller.md section 2, D20). -/
def Obligations.AxisFollowsItsTable : Prop :=
  ∀ A B raw prev m : Byte, IsAxisPair A B → (m = 0 ∨ m = A ∨ m = B) →
    let P := A ||| B
    let cur := raw &&& P
    let e := cur &&& ~~~(prev &&& P)
    (∀ mode, cur = 0 → axis mode raw prev m A B = (0, 0)) ∧
    axis .off raw prev m A B = (cur, 0) ∧
    (cur = A ∨ cur = B →
      axis .firstPress raw prev m A B = (cur, cur) ∧ axis .latestPress raw prev m A B = (cur, cur) ∧
      axis .firstRepress raw prev m A B = (if cur = m ∨ e = cur then (cur, cur) else (0, 0)) ∧
      axis .latestRepress raw prev m A B = (if cur = m ∨ e = cur then (cur, cur) else (0, 0))) ∧
    (cur = P → m ≠ 0 →
      axis .firstPress raw prev m A B = (m, m) ∧ axis .firstRepress raw prev m A B = (m, m) ∧
      axis .latestPress raw prev m A B = (if e = A ∨ e = B then (e, e) else (m, m)) ∧
      axis .latestRepress raw prev m A B = (if e = A ∨ e = B then (e, e) else (m, m))) ∧
    (cur = P → m = 0 → (e = A ∨ e = B) →
      axis .firstPress raw prev m A B = (P &&& ~~~e, P &&& ~~~e) ∧ axis .latestPress raw prev m A B = (e, e) ∧
      axis .firstRepress raw prev m A B = (e, e) ∧ axis .latestRepress raw prev m A B = (e, e)) ∧
    (cur = P → m = 0 → ¬(e = A ∨ e = B) →
      axis .firstPress raw prev m A B = (0, 0) ∧ axis .latestPress raw prev m A B = (0, 0) ∧
      axis .firstRepress raw prev m A B = (0, 0) ∧ axis .latestRepress raw prev m A B = (0, 0))

/-- After a poll of a port whose masks are legal: the masks are legal again, the plain buttons pass, no direction is
invented, in every mode but `OFF` no opposing pair is latched, and in the four press-tracking modes the axis parts of the
latched mask are the resolution masks (43_controller.md section 3). -/
def Obligations.PollKeepsTheFilterInvariants : Prop :=
  ∀ (c : Params) (q : Port), c.wf = true → (q.hmask = 0 ∨ q.hmask = btnLeft c ∨ q.hmask = btnRight c) →
    (q.vmask = 0 ∨ q.vmask = btnUp c ∨ q.vmask = btnDown c) →
    let horizontal := btnLeft c ||| btnRight c
    let vertical := btnUp c ||| btnDown c
    (q.poll c).Legal c ∧ (q.poll c).prevRaw = q.buttonsIn ∧
    (q.mode ≠ .off → (q.poll c).state &&& horizontal ≠ horizontal ∧ (q.poll c).state &&& vertical ≠ vertical) ∧
    (q.mode ≠ .off → q.mode ≠ .neutral →
      (q.poll c).state &&& horizontal = (q.poll c).hmask ∧ (q.poll c).state &&& vertical = (q.poll c).vmask)

/-! ### The snapshot port -/

/-- SAVE at a cycle boundary returns the board chunk, when a Board is active, and then the chunk of every present port in
ascending order, and changes no state (layouts and order: D23, D24; byte 14 in register D's layout: log 30). -/
def Obligations.SaveReturnsAllOwnedState : Prop :=
  ∀ s : State, s.inCycle = false → s.ports.length ≤ 4 →
    ∃ pads : List Chunk,
      exec .save s = .next { s with
        result := .snapshot ((match s.board with
          | some b => [⟨.board, 0, b.latch.setWidth 8 :: b.regs.toList ++
              [(if b.timer.enabled then 1#8 <<< s.params.enBit.val else 0x00) |||
                 (if b.timer.src then 1#8 <<< s.params.srcBit.val else 0x00),
               b.timer.count.extractLsb' 0 8, b.timer.count.extractLsb' 8 8, if b.irqReq then 0x01 else 0x00]⟩]
          | none => []) ++ pads)
        calls := [] } ∧
      pads.length = s.ports.length ∧
      ∀ (p : PortIx) (q : Port), s.ports[p.val]? = some q →
        pads[p.val]? = some ⟨.pad p, 0, [if q.strobe then 0x01 else 0x00, q.sr ^^^ 0xFF]⟩

/-- LOAD at a cycle boundary of any snapshot whose tags are unique and whose chunks of components that are present are
long enough completes, chunks of absent components being skipped whatever their length: a component whose chunk is
present takes exactly the fields the chunk carries, from the front of its payload, every other component and every field
no chunk carries stays, and a loaded Board tells the collaborator of every register and drives the line to the loaded
request (layouts, prefix rule and skipping: D23, D24, D25). -/
def Obligations.LoadReplacesExactlyTheCarriedFields : Prop :=
  ∀ (s : State) (snap : Snapshot) (tag : Nat), s.inCycle = false → (snap.map Chunk.tag).Nodup →
    (∀ c ∈ snap, c.tag = .board → s.board.isSome = true → 18 ≤ c.payload.length) →
    (∀ c ∈ snap, ∀ p, c.tag = .pad p → p.val < s.ports.length → 2 ≤ c.payload.length) →
    ∃ t, exec (.load snap tag) s = .next t ∧ t.result = .none ∧ t.ports.length = s.ports.length ∧
      (∀ (p : PortIx) (q : Port), s.ports[p.val]? = some q →
        t.ports[p.val]? = some (match snap.find? fun c => c.tag == .pad p with
          | some c => { q with strobe := (c.payload.getD 0 0).getLsbD 0, sr := c.payload.getD 1 0 ^^^ 0xFF }
          | none => q)) ∧
      (match s.board, snap.find? fun c => c.tag == .board with
        | some b, some c =>
          (∀ i : RegIx, t.banks[i] = c.payload.getD (1 + i.val) 0) ∧
          t.board = some { b with
            latch := (c.payload.getD 0 0).extractLsb' 0 4
            regs := t.banks
            timer :=
              { enabled := (c.payload.getD 14 0).getLsbD s.params.enBit
                src := (c.payload.getD 14 0).getLsbD s.params.srcBit
                count := c.payload.getD 16 0 ++ c.payload.getD 15 0 }
            irqReq := (c.payload.getD 17 0).getLsbD 0 } ∧
          t.irqLine = (c.payload.getD 17 0).getLsbD 0 ∧
          t.calls = (List.finRange 13).map fun i => .bankSelect i t.banks[i]
        | _, _ => t.board = s.board ∧ t.banks = s.banks ∧ t.irqLine = s.irqLine ∧ t.calls = []) ∧
      t = { s with
        board := t.board
        ports := t.ports
        banks := t.banks
        irqLine := t.irqLine
        result := t.result
        calls := t.calls }

/-- Loading what was just saved gives the saved state back, whatever the version tag: only the outputs differ
(44_snapshot.md section 4). -/
def Obligations.LoadingASaveIsTheIdentity : Prop :=
  ∀ (s : State) (tag : Nat), s.Inv → s.inCycle = false →
    ∃ t snap cs, exec .save s = .next t ∧ t.result = .snapshot snap ∧
      exec (.load snap tag) t = .next { s with result := .none, calls := cs }

/-- A chunk whose tag the reader does not know may stand anywhere in a snapshot: the load has exactly the effect it has
without it (44_snapshot.md section 4). -/
def Obligations.UnknownChunksAreSkipped : Prop :=
  ∀ (s : State) (before after : Snapshot) (b0 b1 b2 b3 ver : Byte) (pl : List Byte) (tag : Nat),
    (∀ d ∈ before ++ after, d.tag ≠ .other b0 b1 b2 b3) →
    exec (.load (before ++ ⟨.other b0 b1 b2 b3, ver, pl⟩ :: after) tag) s = exec (.load (before ++ after) tag) s

/-- A load is staged: a snapshot with a chunk of a present component that is too short, or with two chunks of one tag, is
reported as a `FormatError` and no state changes, whatever good chunks stand beside it (D25). -/
def Obligations.MalformedLoadsChangeNothing : Prop :=
  ∀ (s : State) (before after : Snapshot) (c : Chunk) (tag : Nat), s.inCycle = false →
    ((c.tag = .board ∧ s.board.isSome = true ∧ c.payload.length < 18) ∨
      (∃ p : PortIx, c.tag = .pad p ∧ p.val < s.ports.length ∧ c.payload.length < 2) ∨
      (∃ d ∈ after, d.tag = c.tag)) →
    ∃ g f, exec (.load (before ++ c :: after) tag) s =
      .next { s with result := .error (.formatError g f), calls := [] }

/-- SAVE and LOAD between a bus transaction and the pulse of its cycle are refused; a bus transaction opens the cycle and
the pulse closes it (D6; log 14). -/
def Obligations.SnapshotsOnlyAtCycleBoundaries : Prop :=
  (∀ s : State, s.inCycle = true →
    exec .save s = .refused .insideCycle ∧ ∀ snap tag, exec (.load snap tag) s = .refused .insideCycle) ∧
  (∀ (i : Instr) (s t : State), exec i s = .next t → IsBusWrite i ∨ IsBusRead i → t.inCycle = true) ∧
  (∀ s t : State, exec .clk s = .next t → t.inCycle = false)

/-! ### The invariant -/

/-- The reset state meets the invariant, with the defaults and with every consistent choice of the parameters (log 30) and
every number of ports from 1 to 4. -/
def Obligations.ResetMeetsTheInvariant : Prop :=
  State.reset.Inv ∧
  ∀ (c : Params) (n : Nat), c.wf = true → 1 ≤ n → n ≤ 4 → (State.resetWith c n).Inv

/-- Every step from a state that meets the invariant, reachable or not, ends in one that meets it: consistent
parameters, 1 to 4 ports, legal resolution masks and latched masks, the interrupt line at the level of the request, the
bindings those of the variant, the collaborator told what the registers hold, the work RAM in canonical form
(10_state.md section 5). -/
def Obligations.EveryStepKeepsTheInvariant : Prop :=
  ∀ s t : State, s.Inv → step s = .next t → t.Inv
end

