-- ==== Sys2Proof/Laws/Decode.lean ====
section
/-! SUPPORT. The fields of a trace word: reading back what the encoder wrote, and rebuilding a word from its fields. -/

namespace Sys2Proof

/-- Bit `i` of a word, field by field. -/
theorem mkWord_getLsbD (k s : BitVec 4) (a : Addr) (d : Byte) (i : Nat) :
    (mkWord k s a d).getLsbD i =
      if i < 8 then d.getLsbD i
      else if i - 8 < 16 then a.getLsbD (i - 8)
      else if i - 8 - 16 < 4 then s.getLsbD (i - 8 - 16)
      else k.getLsbD (i - 8 - 16 - 4) := by
  have e : (mkWord k s a d).getLsbD i = BitVec.getLsbD (k ++ s ++ a ++ d) i := rfl
  rw [e, BitVec.getLsbD_append, BitVec.getLsbD_append, BitVec.getLsbD_append]

theorem wordKind_mkWord (k s : BitVec 4) (a : Addr) (d : Byte) : wordKind (mkWord k s a d) = k := by
  apply BitVec.eq_of_getLsbD_eq; intro i hi
  have h0 : ¬ 28 + i < 8 := by omega
  have h1 : ¬ 28 + i - 8 < 16 := by omega
  have h2 : ¬ 28 + i - 8 - 16 < 4 := by omega
  have h3 : 28 + i - 8 - 16 - 4 = i := by omega
  simp only [wordKind, BitVec.getLsbD_extractLsb', mkWord_getLsbD, hi, h0, h1, h2, h3, if_false, decide_true,
    Bool.true_and]

theorem wordSub_mkWord (k s : BitVec 4) (a : Addr) (d : Byte) : wordSub (mkWord k s a d) = s := by
  apply BitVec.eq_of_getLsbD_eq; intro i hi
  have h0 : ¬ 24 + i < 8 := by omega
  have h1 : ¬ 24 + i - 8 < 16 := by omega
  have h2 : 24 + i - 8 - 16 = i := by omega
  simp only [wordSub, BitVec.getLsbD_extractLsb', mkWord_getLsbD, hi, h0, h1, h2, if_false, if_true, decide_true,
    Bool.true_and]

theorem wordAddr_mkWord (k s : BitVec 4) (a : Addr) (d : Byte) : wordAddr (mkWord k s a d) = a := by
  apply BitVec.eq_of_getLsbD_eq; intro i hi
  have h0 : ¬ 8 + i < 8 := by omega
  have h1 : 8 + i - 8 = i := by omega
  simp only [wordAddr, BitVec.getLsbD_extractLsb', mkWord_getLsbD, hi, h0, h1, if_false, if_true, decide_true,
    Bool.true_and]

theorem wordData_mkWord (k s : BitVec 4) (a : Addr) (d : Byte) : wordData (mkWord k s a d) = d := by
  apply BitVec.eq_of_getLsbD_eq; intro i hi
  simp only [wordData, BitVec.getLsbD_extractLsb', mkWord_getLsbD, hi, Nat.zero_add, if_true, decide_true,
    Bool.true_and]

/-- A word is its four fields. -/
theorem mkWord_fields (w : Word) : mkWord (wordKind w) (wordSub w) (wordAddr w) (wordData w) = w := by
  apply BitVec.eq_of_getLsbD_eq; intro i hi
  rw [mkWord_getLsbD]
  simp only [wordKind, wordSub, wordAddr, wordData, BitVec.getLsbD_extractLsb']
  by_cases h0 : i < 8
  · simp [h0]
  · by_cases h1 : i - 8 < 16
    · simp [h0, h1]; congr 1; omega
    · by_cases h2 : i - 8 - 16 < 4
      · simp [h0, h1, h2]; congr 1; omega
      · have h3 : i - 8 - 16 - 4 < 4 := by omega
        simp [h0, h1, h2, h3]; congr 1; omega

theorem portOf_portSub {n : Nat} (p : PortIx) (h : p.val < n) : portOf n (portSub p) = some p := by
  have hp : p.val < 4 := p.isLt
  have e : (portSub p).toNat = p.val := by simp [portSub]; omega
  simp only [portOf, e, hp, h, dite_true, if_true]

/-- A port a field names is present, and the field is its encoding. -/
theorem portOf_some {n : Nat} {sub : BitVec 4} {p : PortIx} (h : portOf n sub = some p) :
    p.val < n ∧ sub = portSub p := by
  unfold portOf at h
  split at h
  · split at h
    · next h1 h2 =>
      cases h
      exact ⟨h2, by simp [portSub]⟩
    · cases h
  · cases h

/-- The other direction for filter modes: a code that names a mode is its code. -/
theorem modeOf_some {d : Byte} {m : FilterMode} (h : modeOf d = some m) : modeCode m = d := by
  unfold modeOf at h
  split at h <;> cases h <;> (apply BitVec.eq_of_toNat_eq; simp_all [modeCode])

theorem modeOf_modeCode (m : FilterMode) : modeOf (modeCode m) = some m := by cases m <;> rfl

/-! ### The windows -/

open Machine

theorem inRange_iff (low high a : Addr) : inRange low high a = true ↔ low.toNat ≤ a.toNat ∧ a.toNat ≤ high.toNat := by
  simp [inRange, BitVec.le_def]

/-- Ranges that do not meet share no address. -/
theorem inRange_apart {lowA highA lowB highB a : Addr} (h : rangesMeet lowA highA lowB highB = false)
    (ha : inRange lowA highA a = true) : inRange lowB highB a = false := by
  rw [inRange_iff] at ha
  rw [Bool.eq_false_iff, Ne, inRange_iff]
  simp [rangesMeet, BitVec.le_def] at h
  omega

/-- Where the windows' parts of a consistent choice of the parameters are used. -/
theorem windowsApart_iff (c : Params) : c.windowsApart = true ↔
    (c.lowLo ≤ c.lowHi ∧ c.cmdLo ≤ c.cmdHi ∧ c.dataLo ≤ c.dataHi) ∧
    rangesMeet c.lowLo c.lowHi c.cmdLo c.cmdHi = false ∧ rangesMeet c.lowLo c.lowHi c.dataLo c.dataHi = false ∧
    rangesMeet c.cmdLo c.cmdHi c.dataLo c.dataHi = false := by
  simp [Params.windowsApart, and_assoc]

/-- What a consistent choice of the parameters gives, part by part. -/
theorem Params.wf_iff (c : Params) : c.wf = true ↔
    c.windowsApart = true ∧ (c.lowHi - c.lowLo).toNat < 0x2000 ∧
    c.padData0Addr ≠ c.padData1Addr ∧ c.enBit ≠ c.srcBit ∧ c.buttons.Nodup ∧ c.auxPos ≠ 0 := by
  simp only [Params.wf, Bool.and_eq_true, decide_eq_true_eq, and_assoc]

theorem default_params_wf : Params.default.wf = true := by decide

/-- No two windows share an address. -/
theorem cmdWindow_not_low {c : Params} (hc : c.windowsApart = true) (a : Addr) (h : inCmdWindow c a = true) :
    inLowWindow c a = false := by
  cases hl : inLowWindow c a
  · rfl
  · exact absurd h (by simp [inCmdWindow, inRange_apart ((windowsApart_iff c).1 hc).2.1 hl])

theorem dataWindow_not_others {c : Params} (hc : c.windowsApart = true) (a : Addr) (h : inDataWindow c a = true) :
    inLowWindow c a = false ∧ inCmdWindow c a = false := by
  obtain ⟨-, -, h2, h3⟩ := (windowsApart_iff c).1 hc
  constructor
  · cases hl : inLowWindow c a
    · rfl
    · exact absurd h (by simp [inDataWindow, inRange_apart h2 hl])
  · cases hl : inCmdWindow c a
    · rfl
    · exact absurd h (by simp [inDataWindow, inRange_apart h3 hl])

/-! ### Bus words -/

/-- What the decoder makes of a read word. -/
theorem decode_readWord (c : DecodeCtx) (a : Addr) : decode c (plainItem 0x0 0 a 0) = .ok (readRow c a) := by
  simp [decode, plainItem, wordKind_mkWord, wordSub_mkWord, wordAddr_mkWord, wordData_mkWord, demand]

/-- What the decoder makes of a write word. -/
theorem decode_writeWord (c : DecodeCtx) (a : Addr) (v : Byte) :
    decode c (plainItem 0x1 0 a v) = .ok (writeRow c a v) := by
  simp [decode, plainItem, wordKind_mkWord, wordSub_mkWord, wordAddr_mkWord, wordData_mkWord, demand]

/-- A bound read handler goes before a controller port. -/
theorem readRow_bound {c : DecodeCtx} {a : Addr} {h : ReadHandler} (hb : findRead c.bindings a = some h) :
    readRow c a = .rdLow a := by
  cases h; simp [readRow, hb]

/-- Without a bound read handler a present controller port claims the read, and else the address alone picks the row. -/
theorem readRow_free {c : DecodeCtx} {a : Addr} (hb : findRead c.bindings a = none) :
    readRow c a =
      if a = c.params.padData0Addr ∧ 0 < c.nports then .rdPad0
      else if a = c.params.padData1Addr ∧ 1 < c.nports then .rdPad1
      else windowReadRow c.params a := by
  simp [readRow, hb]

theorem presentPad_eq_false {c : Params} {n : Nat} {a : Addr} : presentPad c n a = false ↔
    ¬(a = c.padData0Addr ∧ 0 < n) ∧ ¬(a = c.padData1Addr ∧ 1 < n) := by
  simp only [presentPad, Bool.or_eq_false_iff, Bool.and_eq_false_iff, beq_eq_false_iff_ne, decide_eq_false_iff_not,
    not_and_or, ne_eq]

theorem readRow_unclaimed {c : DecodeCtx} {a : Addr} (hb : findRead c.bindings a = none)
    (hp : presentPad c.params c.nports a = false) : readRow c a = windowReadRow c.params a := by
  rw [readRow_free hb, if_neg (presentPad_eq_false.1 hp).1, if_neg (presentPad_eq_false.1 hp).2]

/-- A bound write handler goes before the strobe port. -/
theorem writeRow_bound {c : DecodeCtx} {a : Addr} {h : WriteHandler} (v : Byte) (hb : findWrite c.bindings a = some h) :
    writeRow c a v = handlerRow c.latch a v h := by
  simp [writeRow, hb]

/-- Without a bound write handler the strobe port claims its address, and else the address alone picks the row. -/
theorem writeRow_free {c : DecodeCtx} {a : Addr} (v : Byte) (hb : findWrite c.bindings a = none) :
    writeRow c a v =
      if a = c.params.padStrobeAddr then .wrStrobe v else windowWriteRow c.params c.latch a v := by
  simp [writeRow, hb]

/-! ### The decoder's guards -/

theorem demand_ok {ok : Bool} {why : DecodeReject} {k : Except DecodeReject Instr} {i : Instr}
    (h : demand ok why k = .ok i) : ok = true ∧ k = .ok i := by
  unfold demand at h
  split at h
  · next ho => exact ⟨ho, h⟩
  · cases h

theorem bare_ok {it : TraceItem} {k : Except DecodeReject Instr} {i : Instr} (h : bare it k = .ok i) :
    wordAddr it.word = 0 ∧ wordData it.word = 0 ∧ it.operand = .none ∧ k = .ok i := by
  obtain ⟨h1, h2⟩ := demand_ok h
  obtain ⟨h3, h4⟩ := demand_ok h2
  simp at h1 h3
  exact ⟨h1.1, h1.2, h3, h4⟩

theorem onPort_ok {c : DecodeCtx} {it : TraceItem} {k : PortIx → Except DecodeReject Instr} {i : Instr}
    (h : onPort c it k = .ok i) : ∃ p : PortIx, p.val < c.nports ∧ wordSub it.word = portSub p ∧ k p = .ok i := by
  unfold onPort at h
  split at h
  · cases h
  · next p hp => exact ⟨p, (portOf_some hp).1, (portOf_some hp).2, h⟩

end Sys2Proof
end

