-- ==== Sys2Proof/Laws/Memory.lean ====
section
/-! SUPPORT. The work RAM: read after write, and every write keeps the canonical form. -/

namespace Sys2Proof.Machine

theorem Memory.read_write_same (m : Memory) (k : Nat) (v : Byte) : (m.write k v).read k = some v := by
  induction m with
  | nil => simp [Memory.write, Memory.read]
  | cons c rest ih =>
    obtain ⟨i, b⟩ := c
    simp only [Memory.write]
    split
    · simp [Memory.read]
    · split
      · simp [Memory.read]
      · next hne => simp [Memory.read, hne, ih]

theorem Memory.read_write_other (m : Memory) (k j : Nat) (v : Byte) (hj : j ≠ k) :
    (m.write k v).read j = m.read j := by
  induction m with
  | nil => simp [Memory.write, Memory.read, hj]
  | cons c rest ih =>
    obtain ⟨i, b⟩ := c
    simp only [Memory.write]
    split
    · simp [Memory.read, hj]
    · split
      · next _ hki => subst hki; simp [Memory.read, hj]
      · simp [Memory.read, ih]

theorem ramByte_write_same (m : Memory) (k : Nat) (v : Byte) : ramByte (m.write k v) k = v := by
  simp [ramByte, Memory.read_write_same]

theorem ramByte_write_other (m : Memory) (k j : Nat) (v : Byte) (hj : j ≠ k) :
    ramByte (m.write k v) j = ramByte m j := by
  simp [ramByte, Memory.read_write_other m k j v hj]

theorem Memory.wfFrom_write (m : Memory) (lo k : Nat) (v : Byte) (hlo : lo ≤ k) (hk : k < ramSize)
    (hm : Memory.wfFrom lo m = true) : Memory.wfFrom lo (m.write k v) = true := by
  induction m generalizing lo with
  | nil => simp [Memory.write, Memory.wfFrom, hlo, hk]
  | cons c rest ih =>
    obtain ⟨i, b⟩ := c
    simp only [Memory.wfFrom, Bool.and_eq_true, decide_eq_true_eq] at hm
    obtain ⟨⟨hi, hir⟩, hrest⟩ := hm
    simp only [Memory.write]
    split
    · next hki => simp [Memory.wfFrom, hlo, hk, hir, hrest]; omega
    · split
      · next _ hki => subst hki; simp [Memory.wfFrom, hlo, hk, hrest]
      · next h1 h2 => simp [Memory.wfFrom, hi, hir, ih (i + 1) (by omega) hrest]

/-- The one write the work RAM has keeps its canonical form. -/
theorem Memory.wf_write (m : Memory) (k : Nat) (v : Byte) (hk : k < ramSize) (hm : m.wf = true) :
    (m.write k v).wf = true :=
  Memory.wfFrom_write m 0 k v (Nat.zero_le k) hk hm

/-- The work RAM of the reset state is in canonical form. -/
theorem reset_wram_wf : State.reset.wram.wf = true := rfl

theorem lowOffset_lt (c : Params) (a : Addr) : lowOffset c a < ramSize := ((a - c.lowLo).extractLsb' 0 13).isLt

/-- The collaborator's write keeps the canonical form. -/
theorem collLowWrite_wf (c : Params) (b : Board) (a : Addr) (v : Byte) (m : Memory) (hm : m.wf = true) :
    (collLowWrite c b a v m).wf = true := by
  unfold collLowWrite
  split
  · split
    · exact Memory.wf_write m _ v (lowOffset_lt c a) hm
    · exact hm
  · exact hm
  · exact hm

/-- Whatever the collaborator's write does, it does at the offset of its address. -/
theorem collLowWrite_other (c : Params) (b : Board) (a : Addr) (v : Byte) (m : Memory) (j : Nat)
    (hj : j ≠ lowOffset c a) : ramByte (collLowWrite c b a v m) j = ramByte m j := by
  unfold collLowWrite
  split
  · split
    · exact ramByte_write_other m _ j v hj
    · rfl
  · rfl
  · rfl

end Sys2Proof.Machine
end

