-- ==== Sys2Proof/Laws/State.lean ====
section
/-! SUPPORT. One lemma per field per update of the state, of a Board and of a port, each true by rfl, so that no later
proof unfolds a record update. -/

namespace Sys2Proof.Machine

/-! ### State.start -/

@[simp] theorem State.start_params (s : State) : (s.start).params = s.params := rfl
@[simp] theorem State.start_board (s : State) : (s.start).board = s.board := rfl
@[simp] theorem State.start_construction (s : State) : (s.start).construction = s.construction := rfl
@[simp] theorem State.start_ports (s : State) : (s.start).ports = s.ports := rfl
@[simp] theorem State.start_aux (s : State) : (s.start).aux = s.aux := rfl
@[simp] theorem State.start_irqLine (s : State) : (s.start).irqLine = s.irqLine := rfl
@[simp] theorem State.start_wram (s : State) : (s.start).wram = s.wram := rfl
@[simp] theorem State.start_banks (s : State) : (s.start).banks = s.banks := rfl
@[simp] theorem State.start_inCycle (s : State) : (s.start).inCycle = s.inCycle := rfl
@[simp] theorem State.start_trace (s : State) : (s.start).trace = s.trace := rfl
@[simp] theorem State.start_result (s : State) : (s.start).result = .none := rfl
@[simp] theorem State.start_calls (s : State) : (s.start).calls = [] := rfl

/-! ### State.answer -/

@[simp] theorem State.answer_params (r : Result) (s : State) : (s.answer r).params = s.params := rfl
@[simp] theorem State.answer_board (r : Result) (s : State) : (s.answer r).board = s.board := rfl
@[simp] theorem State.answer_construction (r : Result) (s : State) : (s.answer r).construction = s.construction := rfl
@[simp] theorem State.answer_ports (r : Result) (s : State) : (s.answer r).ports = s.ports := rfl
@[simp] theorem State.answer_aux (r : Result) (s : State) : (s.answer r).aux = s.aux := rfl
@[simp] theorem State.answer_irqLine (r : Result) (s : State) : (s.answer r).irqLine = s.irqLine := rfl
@[simp] theorem State.answer_wram (r : Result) (s : State) : (s.answer r).wram = s.wram := rfl
@[simp] theorem State.answer_banks (r : Result) (s : State) : (s.answer r).banks = s.banks := rfl
@[simp] theorem State.answer_inCycle (r : Result) (s : State) : (s.answer r).inCycle = s.inCycle := rfl
@[simp] theorem State.answer_trace (r : Result) (s : State) : (s.answer r).trace = s.trace := rfl
@[simp] theorem State.answer_result (r : Result) (s : State) : (s.answer r).result = r := rfl
@[simp] theorem State.answer_calls (r : Result) (s : State) : (s.answer r).calls = s.calls := rfl

/-! ### State.setBoard -/

@[simp] theorem State.setBoard_params (b : Option Board) (s : State) : (s.setBoard b).params = s.params := rfl
@[simp] theorem State.setBoard_board (b : Option Board) (s : State) : (s.setBoard b).board = b := rfl
@[simp] theorem State.setBoard_construction (b : Option Board) (s : State) : (s.setBoard b).construction = s.construction := rfl
@[simp] theorem State.setBoard_ports (b : Option Board) (s : State) : (s.setBoard b).ports = s.ports := rfl
@[simp] theorem State.setBoard_aux (b : Option Board) (s : State) : (s.setBoard b).aux = s.aux := rfl
@[simp] theorem State.setBoard_irqLine (b : Option Board) (s : State) : (s.setBoard b).irqLine = s.irqLine := rfl
@[simp] theorem State.setBoard_wram (b : Option Board) (s : State) : (s.setBoard b).wram = s.wram := rfl
@[simp] theorem State.setBoard_banks (b : Option Board) (s : State) : (s.setBoard b).banks = s.banks := rfl
@[simp] theorem State.setBoard_inCycle (b : Option Board) (s : State) : (s.setBoard b).inCycle = s.inCycle := rfl
@[simp] theorem State.setBoard_trace (b : Option Board) (s : State) : (s.setBoard b).trace = s.trace := rfl
@[simp] theorem State.setBoard_result (b : Option Board) (s : State) : (s.setBoard b).result = s.result := rfl
@[simp] theorem State.setBoard_calls (b : Option Board) (s : State) : (s.setBoard b).calls = s.calls := rfl

/-! ### State.setConstruction -/

@[simp] theorem State.setConstruction_params (c : Option (List Binding)) (s : State) : (s.setConstruction c).params = s.params := rfl
@[simp] theorem State.setConstruction_board (c : Option (List Binding)) (s : State) : (s.setConstruction c).board = s.board := rfl
@[simp] theorem State.setConstruction_construction (c : Option (List Binding)) (s : State) : (s.setConstruction c).construction = c := rfl
@[simp] theorem State.setConstruction_ports (c : Option (List Binding)) (s : State) : (s.setConstruction c).ports = s.ports := rfl
@[simp] theorem State.setConstruction_aux (c : Option (List Binding)) (s : State) : (s.setConstruction c).aux = s.aux := rfl
@[simp] theorem State.setConstruction_irqLine (c : Option (List Binding)) (s : State) : (s.setConstruction c).irqLine = s.irqLine := rfl
@[simp] theorem State.setConstruction_wram (c : Option (List Binding)) (s : State) : (s.setConstruction c).wram = s.wram := rfl
@[simp] theorem State.setConstruction_banks (c : Option (List Binding)) (s : State) : (s.setConstruction c).banks = s.banks := rfl
@[simp] theorem State.setConstruction_inCycle (c : Option (List Binding)) (s : State) : (s.setConstruction c).inCycle = s.inCycle := rfl
@[simp] theorem State.setConstruction_trace (c : Option (List Binding)) (s : State) : (s.setConstruction c).trace = s.trace := rfl
@[simp] theorem State.setConstruction_result (c : Option (List Binding)) (s : State) : (s.setConstruction c).result = s.result := rfl
@[simp] theorem State.setConstruction_calls (c : Option (List Binding)) (s : State) : (s.setConstruction c).calls = s.calls := rfl

/-! ### State.setPorts -/

@[simp] theorem State.setPorts_params (ps : List Port) (s : State) : (s.setPorts ps).params = s.params := rfl
@[simp] theorem State.setPorts_board (ps : List Port) (s : State) : (s.setPorts ps).board = s.board := rfl
@[simp] theorem State.setPorts_construction (ps : List Port) (s : State) : (s.setPorts ps).construction = s.construction := rfl
@[simp] theorem State.setPorts_ports (ps : List Port) (s : State) : (s.setPorts ps).ports = ps := rfl
@[simp] theorem State.setPorts_aux (ps : List Port) (s : State) : (s.setPorts ps).aux = s.aux := rfl
@[simp] theorem State.setPorts_irqLine (ps : List Port) (s : State) : (s.setPorts ps).irqLine = s.irqLine := rfl
@[simp] theorem State.setPorts_wram (ps : List Port) (s : State) : (s.setPorts ps).wram = s.wram := rfl
@[simp] theorem State.setPorts_banks (ps : List Port) (s : State) : (s.setPorts ps).banks = s.banks := rfl
@[simp] theorem State.setPorts_inCycle (ps : List Port) (s : State) : (s.setPorts ps).inCycle = s.inCycle := rfl
@[simp] theorem State.setPorts_trace (ps : List Port) (s : State) : (s.setPorts ps).trace = s.trace := rfl
@[simp] theorem State.setPorts_result (ps : List Port) (s : State) : (s.setPorts ps).result = s.result := rfl
@[simp] theorem State.setPorts_calls (ps : List Port) (s : State) : (s.setPorts ps).calls = s.calls := rfl

/-! ### State.setAux -/

@[simp] theorem State.setAux_params (x : Bool) (s : State) : (s.setAux x).params = s.params := rfl
@[simp] theorem State.setAux_board (x : Bool) (s : State) : (s.setAux x).board = s.board := rfl
@[simp] theorem State.setAux_construction (x : Bool) (s : State) : (s.setAux x).construction = s.construction := rfl
@[simp] theorem State.setAux_ports (x : Bool) (s : State) : (s.setAux x).ports = s.ports := rfl
@[simp] theorem State.setAux_aux (x : Bool) (s : State) : (s.setAux x).aux = x := rfl
@[simp] theorem State.setAux_irqLine (x : Bool) (s : State) : (s.setAux x).irqLine = s.irqLine := rfl
@[simp] theorem State.setAux_wram (x : Bool) (s : State) : (s.setAux x).wram = s.wram := rfl
@[simp] theorem State.setAux_banks (x : Bool) (s : State) : (s.setAux x).banks = s.banks := rfl
@[simp] theorem State.setAux_inCycle (x : Bool) (s : State) : (s.setAux x).inCycle = s.inCycle := rfl
@[simp] theorem State.setAux_trace (x : Bool) (s : State) : (s.setAux x).trace = s.trace := rfl
@[simp] theorem State.setAux_result (x : Bool) (s : State) : (s.setAux x).result = s.result := rfl
@[simp] theorem State.setAux_calls (x : Bool) (s : State) : (s.setAux x).calls = s.calls := rfl

/-! ### State.setWram -/

@[simp] theorem State.setWram_params (m : Memory) (s : State) : (s.setWram m).params = s.params := rfl
@[simp] theorem State.setWram_board (m : Memory) (s : State) : (s.setWram m).board = s.board := rfl
@[simp] theorem State.setWram_construction (m : Memory) (s : State) : (s.setWram m).construction = s.construction := rfl
@[simp] theorem State.setWram_ports (m : Memory) (s : State) : (s.setWram m).ports = s.ports := rfl
@[simp] theorem State.setWram_aux (m : Memory) (s : State) : (s.setWram m).aux = s.aux := rfl
@[simp] theorem State.setWram_irqLine (m : Memory) (s : State) : (s.setWram m).irqLine = s.irqLine := rfl
@[simp] theorem State.setWram_wram (m : Memory) (s : State) : (s.setWram m).wram = m := rfl
@[simp] theorem State.setWram_banks (m : Memory) (s : State) : (s.setWram m).banks = s.banks := rfl
@[simp] theorem State.setWram_inCycle (m : Memory) (s : State) : (s.setWram m).inCycle = s.inCycle := rfl
@[simp] theorem State.setWram_trace (m : Memory) (s : State) : (s.setWram m).trace = s.trace := rfl
@[simp] theorem State.setWram_result (m : Memory) (s : State) : (s.setWram m).result = s.result := rfl
@[simp] theorem State.setWram_calls (m : Memory) (s : State) : (s.setWram m).calls = s.calls := rfl

/-! ### State.setInCycle -/

@[simp] theorem State.setInCycle_params (x : Bool) (s : State) : (s.setInCycle x).params = s.params := rfl
@[simp] theorem State.setInCycle_board (x : Bool) (s : State) : (s.setInCycle x).board = s.board := rfl
@[simp] theorem State.setInCycle_construction (x : Bool) (s : State) : (s.setInCycle x).construction = s.construction := rfl
@[simp] theorem State.setInCycle_ports (x : Bool) (s : State) : (s.setInCycle x).ports = s.ports := rfl
@[simp] theorem State.setInCycle_aux (x : Bool) (s : State) : (s.setInCycle x).aux = s.aux := rfl
@[simp] theorem State.setInCycle_irqLine (x : Bool) (s : State) : (s.setInCycle x).irqLine = s.irqLine := rfl
@[simp] theorem State.setInCycle_wram (x : Bool) (s : State) : (s.setInCycle x).wram = s.wram := rfl
@[simp] theorem State.setInCycle_banks (x : Bool) (s : State) : (s.setInCycle x).banks = s.banks := rfl
@[simp] theorem State.setInCycle_inCycle (x : Bool) (s : State) : (s.setInCycle x).inCycle = x := rfl
@[simp] theorem State.setInCycle_trace (x : Bool) (s : State) : (s.setInCycle x).trace = s.trace := rfl
@[simp] theorem State.setInCycle_result (x : Bool) (s : State) : (s.setInCycle x).result = s.result := rfl
@[simp] theorem State.setInCycle_calls (x : Bool) (s : State) : (s.setInCycle x).calls = s.calls := rfl

/-! ### State.setTrace -/

@[simp] theorem State.setTrace_params (l : List TraceItem) (s : State) : (s.setTrace l).params = s.params := rfl
@[simp] theorem State.setTrace_board (l : List TraceItem) (s : State) : (s.setTrace l).board = s.board := rfl
@[simp] theorem State.setTrace_construction (l : List TraceItem) (s : State) : (s.setTrace l).construction = s.construction := rfl
@[simp] theorem State.setTrace_ports (l : List TraceItem) (s : State) : (s.setTrace l).ports = s.ports := rfl
@[simp] theorem State.setTrace_aux (l : List TraceItem) (s : State) : (s.setTrace l).aux = s.aux := rfl
@[simp] theorem State.setTrace_irqLine (l : List TraceItem) (s : State) : (s.setTrace l).irqLine = s.irqLine := rfl
@[simp] theorem State.setTrace_wram (l : List TraceItem) (s : State) : (s.setTrace l).wram = s.wram := rfl
@[simp] theorem State.setTrace_banks (l : List TraceItem) (s : State) : (s.setTrace l).banks = s.banks := rfl
@[simp] theorem State.setTrace_inCycle (l : List TraceItem) (s : State) : (s.setTrace l).inCycle = s.inCycle := rfl
@[simp] theorem State.setTrace_trace (l : List TraceItem) (s : State) : (s.setTrace l).trace = l := rfl
@[simp] theorem State.setTrace_result (l : List TraceItem) (s : State) : (s.setTrace l).result = s.result := rfl
@[simp] theorem State.setTrace_calls (l : List TraceItem) (s : State) : (s.setTrace l).calls = s.calls := rfl

/-! ### State.irqLineCall -/

@[simp] theorem State.irqLineCall_params (x : Bool) (s : State) : (s.irqLineCall x).params = s.params := rfl
@[simp] theorem State.irqLineCall_board (x : Bool) (s : State) : (s.irqLineCall x).board = s.board := rfl
@[simp] theorem State.irqLineCall_construction (x : Bool) (s : State) : (s.irqLineCall x).construction = s.construction := rfl
@[simp] theorem State.irqLineCall_ports (x : Bool) (s : State) : (s.irqLineCall x).ports = s.ports := rfl
@[simp] theorem State.irqLineCall_aux (x : Bool) (s : State) : (s.irqLineCall x).aux = s.aux := rfl
@[simp] theorem State.irqLineCall_irqLine (x : Bool) (s : State) : (s.irqLineCall x).irqLine = x := rfl
@[simp] theorem State.irqLineCall_wram (x : Bool) (s : State) : (s.irqLineCall x).wram = s.wram := rfl
@[simp] theorem State.irqLineCall_banks (x : Bool) (s : State) : (s.irqLineCall x).banks = s.banks := rfl
@[simp] theorem State.irqLineCall_inCycle (x : Bool) (s : State) : (s.irqLineCall x).inCycle = s.inCycle := rfl
@[simp] theorem State.irqLineCall_trace (x : Bool) (s : State) : (s.irqLineCall x).trace = s.trace := rfl
@[simp] theorem State.irqLineCall_result (x : Bool) (s : State) : (s.irqLineCall x).result = s.result := rfl
@[simp] theorem State.irqLineCall_calls (x : Bool) (s : State) : (s.irqLineCall x).calls = s.calls := rfl

/-! ### State.logCall -/

@[simp] theorem State.logCall_params (c : CollCall) (s : State) : (s.logCall c).params = s.params := rfl
@[simp] theorem State.logCall_board (c : CollCall) (s : State) : (s.logCall c).board = s.board := rfl
@[simp] theorem State.logCall_construction (c : CollCall) (s : State) : (s.logCall c).construction = s.construction := rfl
@[simp] theorem State.logCall_ports (c : CollCall) (s : State) : (s.logCall c).ports = s.ports := rfl
@[simp] theorem State.logCall_aux (c : CollCall) (s : State) : (s.logCall c).aux = s.aux := rfl
@[simp] theorem State.logCall_irqLine (c : CollCall) (s : State) : (s.logCall c).irqLine = s.irqLine := rfl
@[simp] theorem State.logCall_wram (c : CollCall) (s : State) : (s.logCall c).wram = s.wram := rfl
@[simp] theorem State.logCall_banks (c : CollCall) (s : State) : (s.logCall c).banks = s.banks := rfl
@[simp] theorem State.logCall_inCycle (c : CollCall) (s : State) : (s.logCall c).inCycle = s.inCycle := rfl
@[simp] theorem State.logCall_trace (c : CollCall) (s : State) : (s.logCall c).trace = s.trace := rfl
@[simp] theorem State.logCall_result (c : CollCall) (s : State) : (s.logCall c).result = s.result := rfl
@[simp] theorem State.logCall_calls (c : CollCall) (s : State) : (s.logCall c).calls = s.calls ++ [c] := rfl

/-! ### State.tellBank -/

@[simp] theorem State.tellBank_params (i : RegIx) (v : Byte) (s : State) : (s.tellBank i v).params = s.params := rfl
@[simp] theorem State.tellBank_board (i : RegIx) (v : Byte) (s : State) : (s.tellBank i v).board = s.board := rfl
@[simp] theorem State.tellBank_construction (i : RegIx) (v : Byte) (s : State) : (s.tellBank i v).construction = s.construction := rfl
@[simp] theorem State.tellBank_ports (i : RegIx) (v : Byte) (s : State) : (s.tellBank i v).ports = s.ports := rfl
@[simp] theorem State.tellBank_aux (i : RegIx) (v : Byte) (s : State) : (s.tellBank i v).aux = s.aux := rfl
@[simp] theorem State.tellBank_irqLine (i : RegIx) (v : Byte) (s : State) : (s.tellBank i v).irqLine = s.irqLine := rfl
@[simp] theorem State.tellBank_wram (i : RegIx) (v : Byte) (s : State) : (s.tellBank i v).wram = s.wram := rfl
@[simp] theorem State.tellBank_banks (i : RegIx) (v : Byte) (s : State) : (s.tellBank i v).banks = s.banks.set i v := rfl
@[simp] theorem State.tellBank_inCycle (i : RegIx) (v : Byte) (s : State) : (s.tellBank i v).inCycle = s.inCycle := rfl
@[simp] theorem State.tellBank_trace (i : RegIx) (v : Byte) (s : State) : (s.tellBank i v).trace = s.trace := rfl
@[simp] theorem State.tellBank_result (i : RegIx) (v : Byte) (s : State) : (s.tellBank i v).result = s.result := rfl
@[simp] theorem State.tellBank_calls (i : RegIx) (v : Byte) (s : State) : (s.tellBank i v).calls = s.calls ++ [.bankSelect i v] := rfl

/-! ### State.tellAllBanks -/

@[simp] theorem State.tellAllBanks_params (rs : Vector Byte 13) (s : State) : (s.tellAllBanks rs).params = s.params := rfl
@[simp] theorem State.tellAllBanks_board (rs : Vector Byte 13) (s : State) : (s.tellAllBanks rs).board = s.board := rfl
@[simp] theorem State.tellAllBanks_construction (rs : Vector Byte 13) (s : State) : (s.tellAllBanks rs).construction = s.construction := rfl
@[simp] theorem State.tellAllBanks_ports (rs : Vector Byte 13) (s : State) : (s.tellAllBanks rs).ports = s.ports := rfl
@[simp] theorem State.tellAllBanks_aux (rs : Vector Byte 13) (s : State) : (s.tellAllBanks rs).aux = s.aux := rfl
@[simp] theorem State.tellAllBanks_irqLine (rs : Vector Byte 13) (s : State) : (s.tellAllBanks rs).irqLine = s.irqLine := rfl
@[simp] theorem State.tellAllBanks_wram (rs : Vector Byte 13) (s : State) : (s.tellAllBanks rs).wram = s.wram := rfl
@[simp] theorem State.tellAllBanks_banks (rs : Vector Byte 13) (s : State) : (s.tellAllBanks rs).banks = rs := rfl
@[simp] theorem State.tellAllBanks_inCycle (rs : Vector Byte 13) (s : State) : (s.tellAllBanks rs).inCycle = s.inCycle := rfl
@[simp] theorem State.tellAllBanks_trace (rs : Vector Byte 13) (s : State) : (s.tellAllBanks rs).trace = s.trace := rfl
@[simp] theorem State.tellAllBanks_result (rs : Vector Byte 13) (s : State) : (s.tellAllBanks rs).result = s.result := rfl
@[simp] theorem State.tellAllBanks_calls (rs : Vector Byte 13) (s : State) : (s.tellAllBanks rs).calls = s.calls ++ bankCalls rs := rfl

/-! ### State.setPort -/

@[simp] theorem State.setPort_params (p : PortIx) (q : Port) (s : State) : (s.setPort p q).params = s.params := rfl
@[simp] theorem State.setPort_board (p : PortIx) (q : Port) (s : State) : (s.setPort p q).board = s.board := rfl
@[simp] theorem State.setPort_construction (p : PortIx) (q : Port) (s : State) : (s.setPort p q).construction = s.construction := rfl
@[simp] theorem State.setPort_ports (p : PortIx) (q : Port) (s : State) : (s.setPort p q).ports = s.ports.set p.val q := rfl
@[simp] theorem State.setPort_aux (p : PortIx) (q : Port) (s : State) : (s.setPort p q).aux = s.aux := rfl
@[simp] theorem State.setPort_irqLine (p : PortIx) (q : Port) (s : State) : (s.setPort p q).irqLine = s.irqLine := rfl
@[simp] theorem State.setPort_wram (p : PortIx) (q : Port) (s : State) : (s.setPort p q).wram = s.wram := rfl
@[simp] theorem State.setPort_banks (p : PortIx) (q : Port) (s : State) : (s.setPort p q).banks = s.banks := rfl
@[simp] theorem State.setPort_inCycle (p : PortIx) (q : Port) (s : State) : (s.setPort p q).inCycle = s.inCycle := rfl
@[simp] theorem State.setPort_trace (p : PortIx) (q : Port) (s : State) : (s.setPort p q).trace = s.trace := rfl
@[simp] theorem State.setPort_result (p : PortIx) (q : Port) (s : State) : (s.setPort p q).result = s.result := rfl
@[simp] theorem State.setPort_calls (p : PortIx) (q : Port) (s : State) : (s.setPort p q).calls = s.calls := rfl

/-! ### State.resetPorts -/

@[simp] theorem State.resetPorts_params (s : State) : (s.resetPorts).params = s.params := rfl
@[simp] theorem State.resetPorts_board (s : State) : (s.resetPorts).board = s.board := rfl
@[simp] theorem State.resetPorts_construction (s : State) : (s.resetPorts).construction = s.construction := rfl
@[simp] theorem State.resetPorts_ports (s : State) : (s.resetPorts).ports = s.ports.map Port.resetPort := rfl
@[simp] theorem State.resetPorts_aux (s : State) : (s.resetPorts).aux = false := rfl
@[simp] theorem State.resetPorts_irqLine (s : State) : (s.resetPorts).irqLine = s.irqLine := rfl
@[simp] theorem State.resetPorts_wram (s : State) : (s.resetPorts).wram = s.wram := rfl
@[simp] theorem State.resetPorts_banks (s : State) : (s.resetPorts).banks = s.banks := rfl
@[simp] theorem State.resetPorts_inCycle (s : State) : (s.resetPorts).inCycle = s.inCycle := rfl
@[simp] theorem State.resetPorts_trace (s : State) : (s.resetPorts).trace = s.trace := rfl
@[simp] theorem State.resetPorts_result (s : State) : (s.resetPorts).result = s.result := rfl
@[simp] theorem State.resetPorts_calls (s : State) : (s.resetPorts).calls = s.calls := rfl

/-! ### State.beginBus -/

@[simp] theorem State.beginBus_params (s : State) : (s.beginBus).params = s.params := rfl
@[simp] theorem State.beginBus_board (s : State) : (s.beginBus).board = s.board := rfl
@[simp] theorem State.beginBus_construction (s : State) : (s.beginBus).construction = s.construction := rfl
@[simp] theorem State.beginBus_ports (s : State) : (s.beginBus).ports = s.ports := rfl
@[simp] theorem State.beginBus_aux (s : State) : (s.beginBus).aux = s.aux := rfl
@[simp] theorem State.beginBus_irqLine (s : State) : (s.beginBus).irqLine = s.irqLine := rfl
@[simp] theorem State.beginBus_wram (s : State) : (s.beginBus).wram = s.wram := rfl
@[simp] theorem State.beginBus_banks (s : State) : (s.beginBus).banks = s.banks := rfl
@[simp] theorem State.beginBus_inCycle (s : State) : (s.beginBus).inCycle = true := rfl
@[simp] theorem State.beginBus_trace (s : State) : (s.beginBus).trace = s.trace := rfl
@[simp] theorem State.beginBus_result (s : State) : (s.beginBus).result = .none := rfl
@[simp] theorem State.beginBus_calls (s : State) : (s.beginBus).calls = [] := rfl

/-! ### Board.setReg -/

@[simp] theorem Board.setReg_ctx (i : RegIx) (v : Byte) (b : Board) : (b.setReg i v).ctx = b.ctx := rfl
@[simp] theorem Board.setReg_variant (i : RegIx) (v : Byte) (b : Board) : (b.setReg i v).variant = b.variant := rfl
@[simp] theorem Board.setReg_bindings (i : RegIx) (v : Byte) (b : Board) : (b.setReg i v).bindings = b.bindings := rfl
@[simp] theorem Board.setReg_latch (i : RegIx) (v : Byte) (b : Board) : (b.setReg i v).latch = b.latch := rfl
@[simp] theorem Board.setReg_regs (i : RegIx) (v : Byte) (b : Board) : (b.setReg i v).regs = b.regs.set i v := rfl
@[simp] theorem Board.setReg_timer (i : RegIx) (v : Byte) (b : Board) : (b.setReg i v).timer = b.timer := rfl
@[simp] theorem Board.setReg_irqReq (i : RegIx) (v : Byte) (b : Board) : (b.setReg i v).irqReq = b.irqReq := rfl

/-! ### Board.setIrqReq -/

@[simp] theorem Board.setIrqReq_ctx (x : Bool) (b : Board) : (b.setIrqReq x).ctx = b.ctx := rfl
@[simp] theorem Board.setIrqReq_variant (x : Bool) (b : Board) : (b.setIrqReq x).variant = b.variant := rfl
@[simp] theorem Board.setIrqReq_bindings (x : Bool) (b : Board) : (b.setIrqReq x).bindings = b.bindings := rfl
@[simp] theorem Board.setIrqReq_latch (x : Bool) (b : Board) : (b.setIrqReq x).latch = b.latch := rfl
@[simp] theorem Board.setIrqReq_regs (x : Bool) (b : Board) : (b.setIrqReq x).regs = b.regs := rfl
@[simp] theorem Board.setIrqReq_timer (x : Bool) (b : Board) : (b.setIrqReq x).timer = b.timer := rfl
@[simp] theorem Board.setIrqReq_irqReq (x : Bool) (b : Board) : (b.setIrqReq x).irqReq = x := rfl

/-! ### Board.setTimer -/

@[simp] theorem Board.setTimer_ctx (t : Timer) (b : Board) : (b.setTimer t).ctx = b.ctx := rfl
@[simp] theorem Board.setTimer_variant (t : Timer) (b : Board) : (b.setTimer t).variant = b.variant := rfl
@[simp] theorem Board.setTimer_bindings (t : Timer) (b : Board) : (b.setTimer t).bindings = b.bindings := rfl
@[simp] theorem Board.setTimer_latch (t : Timer) (b : Board) : (b.setTimer t).latch = b.latch := rfl
@[simp] theorem Board.setTimer_regs (t : Timer) (b : Board) : (b.setTimer t).regs = b.regs := rfl
@[simp] theorem Board.setTimer_timer (t : Timer) (b : Board) : (b.setTimer t).timer = t := rfl
@[simp] theorem Board.setTimer_irqReq (t : Timer) (b : Board) : (b.setTimer t).irqReq = b.irqReq := rfl

/-! ### Board.setLatch -/

@[simp] theorem Board.setLatch_ctx (l : BitVec 4) (b : Board) : (b.setLatch l).ctx = b.ctx := rfl
@[simp] theorem Board.setLatch_variant (l : BitVec 4) (b : Board) : (b.setLatch l).variant = b.variant := rfl
@[simp] theorem Board.setLatch_bindings (l : BitVec 4) (b : Board) : (b.setLatch l).bindings = b.bindings := rfl
@[simp] theorem Board.setLatch_latch (l : BitVec 4) (b : Board) : (b.setLatch l).latch = l := rfl
@[simp] theorem Board.setLatch_regs (l : BitVec 4) (b : Board) : (b.setLatch l).regs = b.regs := rfl
@[simp] theorem Board.setLatch_timer (l : BitVec 4) (b : Board) : (b.setLatch l).timer = b.timer := rfl
@[simp] theorem Board.setLatch_irqReq (l : BitVec 4) (b : Board) : (b.setLatch l).irqReq = b.irqReq := rfl

/-! ### Port.poll -/

@[simp] theorem Port.poll_strobe (c : Params) (q : Port) : (q.poll c).strobe = q.strobe := rfl
@[simp] theorem Port.poll_sr (c : Params) (q : Port) : (q.poll c).sr = q.sr := rfl
@[simp] theorem Port.poll_state (c : Params) (q : Port) : (q.poll c).state = (filterMask c q.mode q.buttonsIn q.prevRaw q.hmask q.vmask).out := rfl
@[simp] theorem Port.poll_prevRaw (c : Params) (q : Port) : (q.poll c).prevRaw = q.buttonsIn := rfl
@[simp] theorem Port.poll_hmask (c : Params) (q : Port) : (q.poll c).hmask = (filterMask c q.mode q.buttonsIn q.prevRaw q.hmask q.vmask).hmask := rfl
@[simp] theorem Port.poll_vmask (c : Params) (q : Port) : (q.poll c).vmask = (filterMask c q.mode q.buttonsIn q.prevRaw q.hmask q.vmask).vmask := rfl
@[simp] theorem Port.poll_mode (c : Params) (q : Port) : (q.poll c).mode = q.mode := rfl
@[simp] theorem Port.poll_buttonsIn (c : Params) (q : Port) : (q.poll c).buttonsIn = q.buttonsIn := rfl
@[simp] theorem Port.poll_auxIn (c : Params) (q : Port) : (q.poll c).auxIn = q.auxIn := rfl

/-! ### Port.shift -/

@[simp] theorem Port.shift_strobe (q : Port) : (q.shift).strobe = q.strobe := rfl
@[simp] theorem Port.shift_sr (q : Port) : (q.shift).sr = padFill ++ q.sr.extractLsb' 1 7 := rfl
@[simp] theorem Port.shift_state (q : Port) : (q.shift).state = q.state := rfl
@[simp] theorem Port.shift_prevRaw (q : Port) : (q.shift).prevRaw = q.prevRaw := rfl
@[simp] theorem Port.shift_hmask (q : Port) : (q.shift).hmask = q.hmask := rfl
@[simp] theorem Port.shift_vmask (q : Port) : (q.shift).vmask = q.vmask := rfl
@[simp] theorem Port.shift_mode (q : Port) : (q.shift).mode = q.mode := rfl
@[simp] theorem Port.shift_buttonsIn (q : Port) : (q.shift).buttonsIn = q.buttonsIn := rfl
@[simp] theorem Port.shift_auxIn (q : Port) : (q.shift).auxIn = q.auxIn := rfl

/-! ### Port.resetPort -/

@[simp] theorem Port.resetPort_strobe (q : Port) : (q.resetPort).strobe = false := rfl
@[simp] theorem Port.resetPort_sr (q : Port) : (q.resetPort).sr = 0xFF := rfl
@[simp] theorem Port.resetPort_state (q : Port) : (q.resetPort).state = 0x00 := rfl
@[simp] theorem Port.resetPort_prevRaw (q : Port) : (q.resetPort).prevRaw = 0x00 := rfl
@[simp] theorem Port.resetPort_hmask (q : Port) : (q.resetPort).hmask = 0x00 := rfl
@[simp] theorem Port.resetPort_vmask (q : Port) : (q.resetPort).vmask = 0x00 := rfl
@[simp] theorem Port.resetPort_mode (q : Port) : (q.resetPort).mode = q.mode := rfl
@[simp] theorem Port.resetPort_buttonsIn (q : Port) : (q.resetPort).buttonsIn = q.buttonsIn := rfl
@[simp] theorem Port.resetPort_auxIn (q : Port) : (q.resetPort).auxIn = q.auxIn := rfl

/-! ### Timer.control -/

@[simp] theorem Timer.control_enabled (c : Params) (v : Byte) (t : Timer) : (t.control c v).enabled = irqEnBit c v := rfl
@[simp] theorem Timer.control_src (c : Params) (v : Byte) (t : Timer) : (t.control c v).src = irqSrcBit c v := rfl
@[simp] theorem Timer.control_count (c : Params) (v : Byte) (t : Timer) : (t.control c v).count = t.count := rfl

/-! ### Timer.loadLow -/

@[simp] theorem Timer.loadLow_enabled (v : Byte) (t : Timer) : (t.loadLow v).enabled = t.enabled := rfl
@[simp] theorem Timer.loadLow_src (v : Byte) (t : Timer) : (t.loadLow v).src = t.src := rfl
@[simp] theorem Timer.loadLow_count (v : Byte) (t : Timer) : (t.loadLow v).count = countOf (countHigh t.count) v := rfl

/-! ### Timer.loadHigh -/

@[simp] theorem Timer.loadHigh_enabled (v : Byte) (t : Timer) : (t.loadHigh v).enabled = t.enabled := rfl
@[simp] theorem Timer.loadHigh_src (v : Byte) (t : Timer) : (t.loadHigh v).src = t.src := rfl
@[simp] theorem Timer.loadHigh_count (v : Byte) (t : Timer) : (t.loadHigh v).count = countOf v (countLow t.count) := rfl

end Sys2Proof.Machine
end

