-- ==== Sys2Proof/Laws/Ops.lean ====
section
/-! SUPPORT. One lemma per shared operation, saying what it does in each of its cases; callers cite it and do not unfold the
operation. -/

namespace Sys2Proof.Machine

theorem claimedWrite_bound {h : WriteHandler} {a : Addr} {s : State} {b : Board} (effect : Board → State → State)
    (hb : s.board = some b) (hw : findWrite b.bindings a = some h) :
    claimedWrite h a effect s = effect b s.beginBus := by
  simp [claimedWrite, hb, hw]

theorem claimedWrite_noBoard {h : WriteHandler} {a : Addr} {s : State} (effect : Board → State → State)
    (hb : s.board = none) : claimedWrite h a effect s = unmappedWrite s := by
  simp [claimedWrite, hb]

/-- A claimed write either has its handler's effect or, where no Board binds the address to the handler, is unmapped. -/
theorem claimedWrite_cases (h : WriteHandler) (a : Addr) (effect : Board → State → State) (s : State) :
    (∃ b, s.board = some b ∧ findWrite b.bindings a = some h ∧ claimedWrite h a effect s = effect b s.beginBus) ∨
      ((∀ b, s.board = some b → findWrite b.bindings a ≠ some h) ∧ claimedWrite h a effect s = unmappedWrite s) := by
  unfold claimedWrite
  cases hb : s.board with
  | none => exact .inr ⟨by simp, rfl⟩
  | some b => by_cases hw : findWrite b.bindings a = some h <;> simp [hw]

theorem claimedRead_bound {h : ReadHandler} {a : Addr} {s : State} {b : Board} (effect : Board → State → State)
    (hb : s.board = some b) (hr : findRead b.bindings a = some h) :
    claimedRead h a effect s = effect b s.beginBus := by
  simp [claimedRead, hb, hr]

theorem claimedRead_noBoard {h : ReadHandler} {a : Addr} {s : State} (effect : Board → State → State)
    (hb : s.board = none) : claimedRead h a effect s = unmappedRead s := by
  simp [claimedRead, hb]

/-- A claimed read either has its handler's effect or, where no Board binds the address to the handler, is unmapped. -/
theorem claimedRead_cases (h : ReadHandler) (a : Addr) (effect : Board → State → State) (s : State) :
    (∃ b, s.board = some b ∧ findRead b.bindings a = some h ∧ claimedRead h a effect s = effect b s.beginBus) ∨
      ((∀ b, s.board = some b → findRead b.bindings a ≠ some h) ∧ claimedRead h a effect s = unmappedRead s) := by
  unfold claimedRead
  cases hb : s.board with
  | none => exact .inr ⟨by simp, rfl⟩
  | some b => by_cases hr : findRead b.bindings a = some h <;> simp [hr]

/-! ### What decoding reads of the state -/

@[simp] theorem State.decodeCtx_params (s : State) : s.decodeCtx.params = s.params := rfl
@[simp] theorem State.decodeCtx_bindings (s : State) : s.decodeCtx.bindings = s.bindings := rfl
@[simp] theorem State.decodeCtx_latch (s : State) : s.decodeCtx.latch = s.latch := rfl
@[simp] theorem State.decodeCtx_nports (s : State) : s.decodeCtx.nports = s.ports.length := by
  simp [State.decodeCtx, DecodeCtx.nports]

theorem State.latch_some {s : State} {b : Board} (hb : s.board = some b) : s.latch = b.latch := by simp [State.latch, hb]

/-- The decoder and the framework's dispatch look the address up in the same bindings. -/
theorem findRead_bindings (s : State) (a : Addr) : findRead s.bindings a = (s.boundRead a).map Prod.snd := by
  unfold State.bindings State.boundRead
  cases s.board <;> simp [findRead, Function.comp_def]

theorem findWrite_bindings (s : State) (a : Addr) : findWrite s.bindings a = (s.boundWrite a).map Prod.snd := by
  unfold State.bindings State.boundWrite
  cases s.board <;> simp [findWrite, Function.comp_def]

/-- A bound read handler is one of the active Board's. -/
theorem boundRead_some {s : State} {a : Addr} {b : Board} {h : ReadHandler} (e : s.boundRead a = some (b, h)) :
    s.board = some b ∧ findRead b.bindings a = some h := by
  unfold State.boundRead at e
  split at e
  · next b' hb =>
    obtain ⟨_, h1, h2⟩ := Option.map_eq_some_iff.1 e
    cases h2
    exact ⟨hb, h1⟩
  · cases e

/-- A bound write handler is one of the active Board's. -/
theorem boundWrite_some {s : State} {a : Addr} {b : Board} {h : WriteHandler} (e : s.boundWrite a = some (b, h)) :
    s.board = some b ∧ findWrite b.bindings a = some h := by
  unfold State.boundWrite at e
  split at e
  · next b' hb =>
    obtain ⟨_, h1, h2⟩ := Option.map_eq_some_iff.1 e
    cases h2
    exact ⟨hb, h1⟩
  · cases e

/-- Where nothing is bound a claimed write is unmapped, whatever its handler. -/
theorem claimedWrite_unbound {s : State} {a : Addr} (e : s.boundWrite a = none) (h : WriteHandler)
    (effect : Board → State → State) : claimedWrite h a effect s = unmappedWrite s := by
  rcases claimedWrite_cases h a effect s with ⟨b, h1, h2, -⟩ | ⟨-, h3⟩
  · simp [State.boundWrite, h1, h2] at e
  · exact h3

/-- Where nothing is bound a claimed read is unmapped, whatever its handler. -/
theorem claimedRead_unbound {s : State} {a : Addr} (e : s.boundRead a = none) (h : ReadHandler)
    (effect : Board → State → State) : claimedRead h a effect s = unmappedRead s := by
  rcases claimedRead_cases h a effect s with ⟨b, h1, h2, -⟩ | ⟨-, h3⟩
  · simp [State.boundRead, h1, h2] at e
  · exact h3

/-! ### Controller ports -/

theorem withPort_present {p : PortIx} {s : State} {q : Port} (effect : Port → State → State)
    (hq : s.ports[p.val]? = some q) : withPort p effect s = .next (effect q s.start) := by
  simp [withPort, hq]

theorem withPort_absent {p : PortIx} {s : State} (effect : Port → State → State)
    (hq : s.ports[p.val]? = none) : withPort p effect s = .refused (.portAbsent p) := by
  simp [withPort, hq]

/-- A port operation that answers a next state found its port. -/
theorem withPort_next {p : PortIx} {s t : State} {effect : Port → State → State}
    (h : withPort p effect s = .next t) : ∃ q, s.ports[p.val]? = some q ∧ t = effect q s.start := by
  unfold withPort at h
  split at h
  · next q hq => exact ⟨q, hq, (Host.Outcome.next.inj h).symm⟩
  · cases h

theorem busPadRead_present {p : PortIx} {s : State} {q : Port} (hq : s.ports[p.val]? = some q) :
    busPadRead p s = padRead p q s.beginBus := by
  simp [busPadRead, hq]

theorem busPadRead_absent {p : PortIx} {s : State} (hq : s.ports[p.val]? = none) :
    busPadRead p s = unmappedRead s := by
  simp [busPadRead, hq]

/-- Binding a range succeeds exactly with the range appended. -/
theorem bindRange_some {bs bs' : List Binding} {low high : Addr} {h : Handler} (e : bindRange bs low high h = some bs') :
    low ≤ high ∧ bs' = bs ++ [⟨low, high, h⟩] := by
  unfold bindRange at e
  split at e
  · next hc =>
    simp only [Bool.and_eq_true, decide_eq_true_eq] at hc
    exact ⟨hc.1, (Option.some.inj e).symm⟩
  · cases e

/-- What NEW, LOAD and every other operation does when it raises: the state is as before but for its outputs. -/
theorem raise_eq (e : Error) (s : State) : raise e s = .next { s with result := .error e, calls := [] } := rfl

/-- The reference policy counts exactly while enabled with its source on. -/
theorem referenceClock_running {t : Timer} (he : t.enabled = true) (hs : t.src = true) :
    referenceClock t = ({ t with count := t.count - 1 }, t.count == 0) := by
  simp [referenceClock, he, hs]

theorem referenceClock_halted {t : Timer} (h : (t.enabled && t.src) = false) : referenceClock t = (t, false) := by
  simp [referenceClock, h]

/-- Every present variant's capability record is the reference board's. -/
@[simp] theorem Variant.caps_eq (c : Params) (v : Variant) : v.caps c = referenceCapabilities c := by cases v; rfl

/-! ### Counts and fields -/

theorem countLow_countOf (h v : Byte) : countLow (countOf h v) = v := by
  apply BitVec.eq_of_getLsbD_eq; intro i hi
  simp only [countLow, countOf, BitVec.getLsbD_extractLsb', hi, BitVec.getLsbD_append]
  simp [hi]

theorem countHigh_countOf (h v : Byte) : countHigh (countOf h v) = h := by
  apply BitVec.eq_of_getLsbD_eq; intro i hi
  simp only [countHigh, countOf, BitVec.getLsbD_extractLsb', hi, BitVec.getLsbD_append]
  simp [hi]

theorem countOf_bytes (c : Count) : countOf (countHigh c) (countLow c) = c := by
  apply BitVec.eq_of_getLsbD_eq; intro i hi
  simp only [countOf, countHigh, countLow, BitVec.getLsbD_append, BitVec.getLsbD_extractLsb']
  by_cases h8 : i < 8
  · simp [h8]
  · have e : 8 + (i - 8) = i := by omega
    rw [e]; simp [h8]; omega

theorem Board.reg_eight (b : Board) : b.reg 8 = b.regs[8] := rfl

theorem lowMode_eq (r : Byte) :
    lowMode r = if r.getLsbD 6 then (if r.getLsbD 7 then .ram else .openBus) else .rom (r.extractLsb' 0 6) := rfl

/-- The byte of a strobe-low read, bit by bit. -/
theorem Port.serialByte_eq (c : Params) (p : PortIx) (q : Port) (aux : Bool) :
    q.serialByte c p aux = ((if q.sr.getLsbD 0 then 0x00 else 0x01) |||
      (if p = c.auxPort ∧ aux = true then 1#8 <<< c.auxPos.val else 0x00)) := by
  unfold Port.serialByte padByte bitByte
  by_cases hp : p = c.auxPort <;> cases q.sr.getLsbD 0 <;> cases aux <;> simp [hp]

/-- A button mask is its one bit. -/
theorem btnMask_getLsbD (i k : Fin 8) : (btnMask i).getLsbD k.val = decide (k = i) := by revert i k; decide

/-- The mask of an axis is its two bits. -/
theorem axisMask_getLsbD (i j k : Fin 8) : (btnMask i ||| btnMask j).getLsbD k.val = (decide (k = i) || decide (k = j)) := by
  rw [BitVec.getLsbD_or, btnMask_getLsbD, btnMask_getLsbD]

theorem plainButtons_getLsbD (c : Params) (k : Fin 8) : (plainButtons c).getLsbD k.val =
    (decide (k = c.btnA) || decide (k = c.btnB) || decide (k = c.btnSelect) || decide (k = c.btnStart)) := by
  simp only [plainButtons, BitVec.getLsbD_or, btnMask_getLsbD]

/-! ### The reference board's bindings and registers -/

theorem findRead_reference (c : Params) (a : Addr) :
    findRead (referenceRanges c) a = if inLowWindow c a then some .lowPage else none := by
  unfold findRead referenceRanges inLowWindow
  simp only [List.findSome?_cons, List.findSome?_nil, handlerRead]
  cases inRange c.lowLo c.lowHi a <;> simp

theorem findWrite_reference (c : Params) (a : Addr) :
    findWrite (referenceRanges c) a =
      if inLowWindow c a then some .lowRam else if inCmdWindow c a then some .commandPort
      else if inDataWindow c a then some .dataPort else none := by
  unfold findWrite referenceRanges inLowWindow inCmdWindow inDataWindow
  simp only [List.findSome?_cons, List.findSome?_nil, handlerWrite]
  cases inRange c.lowLo c.lowHi a <;> cases inRange c.cmdLo c.cmdHi a <;> cases inRange c.dataLo c.dataHi a <;> simp

/-- The reference board's ranges bind exactly when its windows are apart. -/
theorem bindAll_reference (c : Params) :
    bindAll [] (referenceRanges c) = if c.windowsApart then some (referenceRanges c) else none := by
  by_cases h1 : c.lowLo ≤ c.lowHi
  · by_cases h2 : c.cmdLo ≤ c.cmdHi
    · by_cases h3 : c.dataLo ≤ c.dataHi
      · cases m1 : rangesMeet c.lowLo c.lowHi c.cmdLo c.cmdHi <;>
          cases m2 : rangesMeet c.lowLo c.lowHi c.dataLo c.dataHi <;>
          cases m3 : rangesMeet c.cmdLo c.cmdHi c.dataLo c.dataHi <;>
          simp [bindAll, bindRange, referenceRanges, Params.windowsApart, handlersClash, handlerRead, handlerWrite, h1, h2,
            h3, m1, m2, m3]
      · cases m1 : rangesMeet c.lowLo c.lowHi c.cmdLo c.cmdHi <;>
          simp [bindAll, bindRange, referenceRanges, Params.windowsApart, handlersClash, handlerRead, handlerWrite, h1, h2,
            h3, m1]
    · simp [bindAll, bindRange, referenceRanges, Params.windowsApart, h1, h2]
  · simp [bindAll, bindRange, referenceRanges, Params.windowsApart, h1]

/-- A register-D write: what the Board becomes, and that only the Board and the line change. -/
theorem storeIrqControl_eq (v : Byte) (b : Board) (s : State) :
    storeIrqControl v b s = { s with
      board := some { b with timer := b.timer.control s.params v, irqReq := b.irqReq && irqEnBit s.params v }
      irqLine := s.irqLine && irqEnBit s.params v } := by
  unfold storeIrqControl
  cases irqEnBit s.params v
  · rw [Bool.and_false, Bool.and_false]; rfl
  · rw [Bool.and_true, Bool.and_true]; rfl

/-- A surfaced policy result: the request and the line are set when it fired and left alone otherwise. -/
theorem surfaceFired_eq (fired : Bool) (b : Board) (s : State) :
    surfaceFired fired b s =
      { s with board := some { b with irqReq := fired || b.irqReq }, irqLine := fired || s.irqLine } := by
  unfold surfaceFired
  cases fired <;> rfl

/-- The low-window offset of an address in the window. -/
theorem lowOffset_eq {c : Params} (hc : (c.lowHi - c.lowLo).toNat < 0x2000) (a : Addr) (ha : inLowWindow c a = true) :
    lowOffset c a = a.toNat - c.lowLo.toNat := by
  rw [inLowWindow, inRange_iff] at ha
  unfold lowOffset
  have h1 := a.isLt
  have h2 := c.lowLo.isLt
  have h3 := c.lowHi.isLt
  rw [BitVec.toNat_sub] at hc
  rw [BitVec.extractLsb'_toNat, BitVec.toNat_sub]
  simp
  omega

/-! ### Committing a load -/

/-- What no load changes. -/
theorem commitAll_frame (sts : List Staged) (s : State) :
    (commitAll s sts).wram = s.wram ∧ (commitAll s sts).aux = s.aux ∧ (commitAll s sts).construction = s.construction ∧
    (commitAll s sts).inCycle = s.inCycle ∧ (commitAll s sts).result = s.result ∧ (commitAll s sts).trace = s.trace ∧
    (commitAll s sts).params = s.params ∧ (commitAll s sts).ports.length = s.ports.length := by
  unfold commitAll
  induction sts generalizing s with
  | nil => exact ⟨rfl, rfl, rfl, rfl, rfl, rfl, rfl, rfl⟩
  | cons x xs ih =>
    rw [List.foldl_cons]
    obtain ⟨h1, h2, h3, h4, h5, h6, h7, h8⟩ := ih (commitOne s x)
    rw [h1, h2, h3, h4, h5, h6, h7, h8]
    cases x <;> simp [commitOne, commitBoard, commitPad] <;> split <;>
      simp [State.setPort, State.tellAllBanks, State.setBoard, State.irqLineCall, State.setPorts]

/-- A parse that fails reports a `FormatError`. -/
theorem parseAll_error {s : State} {snap : Snapshot} {e : Error} (h : parseAll s snap = .error e) :
    ∃ g f, e = .formatError g f := by
  induction snap generalizing e with
  | nil => cases h
  | cons c r ih =>
    simp only [parseAll] at h
    split at h
    · next e' he =>
      cases h
      unfold parseChunk at he
      split at he
      · cases he
      · split at he
        · cases he
        · split at he <;> cases he
          exact ⟨_, _, rfl⟩
      · split at he
        · cases he
        · split at he <;> cases he
          exact ⟨_, _, rfl⟩
    · split at h
      · next e' he => cases h; exact ih he
      · cases h

end Sys2Proof.Machine
end

