-- ==== Sys2Proof/Laws/Effects.lean ====
section
/-! SUPPORT. Said once: everything an operation can do when it answers a next state. Invariants and frames are case
analyses over `Effect` and do not unfold the meanings. -/

namespace Sys2Proof.Machine

/-- The address and the handler a write row claims. -/
def writeClaim : Instr → Option (Addr × WriteHandler)
  | .wrCmd a _ => some (a, .commandPort)
  | .wrLow a _ => some (a, .lowRam)
  | .setBank0 a _ | .setBank1 a _ | .setBank2 a _ | .setBank3 a _ | .setBank4 a _ | .setBank5 a _ | .setBank6 a _
  | .setBank7 a _ | .setLowCtl0 a _ | .setLowCtl1 a _ | .setRegA a _ | .setRegB a _ | .setRegC a _ | .setIrqCtl a _
  | .setCntLo a _ | .setCntHi a _ => some (a, .dataPort)
  | .wrStrobe _ | .wrUnmapped _ _ | .rdLow _ | .rdPad0 | .rdPad1 | .rdCmdData _ | .rdUnmapped _ | .clk | .rstSoft | .rstHard
  | .syncFrameStart | .syncFrameEnd | .syncAddrEdge | .syncStrobeEdge | .bf _ | .pw _ _ | .prLow _ | .prHigh _
  | .input _ _ _ | .mode _ _ | .save | .load _ _ | .new _ | .range _ _ _ | .del => none

/-- `Effect i s t`: the ways in which `exec i s` can answer `t`, each with the facts it rests on. -/
inductive Effect : Instr → State → State → Prop
  | latch {s b a v} : s.board = some b → findWrite b.bindings a = some .commandPort →
      Effect (.wrCmd a v) s (storeLatch v b s.beginBus)
  | register {s b k a v} (i : RegIx) : k = dataRow (BitVec.ofNat 4 i.val) a v → s.board = some b →
      findWrite b.bindings a = some .dataPort → Effect k s (storeReg i v b s.beginBus)
  | irqControl {s b a v} : s.board = some b → findWrite b.bindings a = some .dataPort →
      Effect (.setIrqCtl a v) s (storeIrqControl v b s.beginBus)
  | countLow {s b a v} : s.board = some b → findWrite b.bindings a = some .dataPort →
      Effect (.setCntLo a v) s (storeCountLow v b s.beginBus)
  | countHigh {s b a v} : s.board = some b → findWrite b.bindings a = some .dataPort →
      Effect (.setCntHi a v) s (storeCountHigh v b s.beginBus)
  | lowWrite {s b a v} : s.board = some b → findWrite b.bindings a = some .lowRam →
      Effect (.wrLow a v) s (writeLowWindow a v b s.beginBus)
  | lowRead {s b a} : s.board = some b → findRead b.bindings a = some .lowPage →
      Effect (.rdLow a) s (readLowWindow a b s.beginBus)
  | unmappedWrite {s k} : IsBusWrite k →
      (∀ a h b, writeClaim k = some (a, h) → s.board = some b → findWrite b.bindings a ≠ some h) → Effect k s (unmappedWrite s)
  | unmappedRead {s k} : IsBusRead k → (∀ a b, k = .rdLow a → s.board = some b → findRead b.bindings a ≠ some .lowPage) →
      (∀ p, IsSerialRead p k = true → s.ports[p.val]? = none) → Effect k s (unmappedRead s)
  | strobeAll {s v} : Effect (.wrStrobe v) s (padWriteAll v s.beginBus)
  | busPad {s k p q} : (k = .rdPad0 ∧ p = 0 ∨ k = .rdPad1 ∧ p = 1) → s.ports[p.val]? = some q →
      Effect k s (padRead p q s.beginBus)
  | pulse {s b} : s.board = some b → Effect .clk s
      ((surfaceFired (referenceClock b.timer).2 (b.setTimer (referenceClock b.timer).1) (s.start.setInCycle false)).answer
        (.fired (referenceClock b.timer).2))
  | pulseNoBoard {s} : s.board = none → Effect .clk s ((s.start.setInCycle false).answer (.fired false))
  | soft {s b} : s.board = some b → Effect .rstSoft s (boardReset false b s.start).resetPorts
  | softNoBoard {s} : s.board = none → Effect .rstSoft s s.start.resetPorts
  | hard {s b} : s.board = some b → Effect .rstHard s (boardHardReset b (s.start.setInCycle false)).resetPorts
  | hardNoBoard {s} : s.board = none → Effect .rstHard s (s.start.setInCycle false).resetPorts
  | sync {s k} : (k = .syncFrameStart ∨ k = .syncFrameEnd ∨ k = .syncAddrEdge ∨ k = .syncStrobeEdge) →
      Effect k s s.start
  | beginFrame {s p q} : s.ports[p.val]? = some q → Effect (.bf p) s (s.start.setAux false)
  | strobeOne {s p q v} : s.ports[p.val]? = some q → Effect (.pw p v) s (padWrite p v q s.start)
  | serial {s p q} : s.ports[p.val]? = some q → Effect (.prLow p) s (serialRead p q s.start)
  | polled {s p q} : s.ports[p.val]? = some q → Effect (.prHigh p) s (pollRead p q s.start)
  | lines {s p q mask aux} : s.ports[p.val]? = some q →
      Effect (.input p mask aux) s (s.start.setPort p { q with buttonsIn := mask, auxIn := aux })
  | setMode {s p q m} : s.ports[p.val]? = some q →
      Effect (.mode p m) s (s.start.setPort p { q with mode := m, hmask := 0, vmask := 0 })
  | saved {s} : s.inCycle = false → Effect .save s (s.start.answer (.snapshot (snapshotOf s)))
  | loadRaised {s snap tag g f} : s.inCycle = false →
      Effect (.load snap tag) s (s.start.answer (.error (.formatError g f)))
  | loaded {s snap tag sts} : s.inCycle = false → duplicateTag snap = none → parseAll s snap = .ok sts →
      Effect (.load snap tag) s (commitAll s.start sts)
  | newRaised {s ctx n} : s.board = none → ctx.variantSelector = .other n →
      Effect (.new ctx) s (s.start.answer (.error (.unsupportedVariant (.other n))))
  | constructed {s ctx} : s.board = none → ctx.variantSelector = .reference → s.params.windowsApart = true →
      Effect (.new ctx) s (activate (newBoard s.params ctx .reference (referenceRanges s.params)) s.start)
  | destroyed {s b} : s.board = some b → Effect .del s ((driveIrq false b s.start).setBoard none)
  | destroyNoBoard {s} : s.board = none → Effect .del s s.start
  | bound {s low high h bs bs'} : s.construction = some bs → bindRange bs low high h = some bs' →
      Effect (.range low high h) s (s.start.setConstruction (some bs'))

/-- The rows of the data port write a stored register or the timer. -/
theorem opClass_dataRow (n : BitVec 4) (a : Addr) (v : Byte) :
    opClass (dataRow n a v) = .registerWrite ∨ opClass (dataRow n a v) = .timerWrite := by
  unfold dataRow
  split <;> simp [opClass]

theorem syncBoard_eq (ev : SyncEvent) (s : State) : syncBoard ev s = s.start := by
  simp [syncBoard, referenceCapabilities, referenceSync, State.start, State.setBoard]

/-- A claimed write or an unmapped one. -/
theorem claimedWrite_effect {k : Instr} {h : WriteHandler} {a : Addr} {effect : Board → State → State} {s t : State}
    (e : Host.Outcome.next (claimedWrite h a effect s) = (.next t : Answer)) (hk : IsBusWrite k)
    (hc : writeClaim k = some (a, h))
    (hb : ∀ b, s.board = some b → findWrite b.bindings a = some h → Effect k s (effect b s.beginBus)) :
    Effect k s t := by
  cases Host.Outcome.next.inj e
  rcases claimedWrite_cases h a effect s with ⟨b, h1, h2, h3⟩ | ⟨h1, h3⟩
  · rw [h3]; exact hb b h1 h2
  · rw [h3]; exact .unmappedWrite hk fun _ _ b he => by rw [hc] at he; cases he; exact h1 b

/-- Every write to a stored register. -/
theorem dataStore_effect {k : Instr} {a : Addr} {v : Byte} {s t : State} (i : RegIx)
    (e : Host.Outcome.next (dataStore i a v s) = (.next t : Answer)) (hk : IsBusWrite k)
    (hc : writeClaim k = some (a, .dataPort)) (hr : k = dataRow (BitVec.ofNat 4 i.val) a v) : Effect k s t :=
  claimedWrite_effect e hk hc fun _ h1 h2 => .register i hr h1 h2

/-- A controller data-port read on the bus: routed to its port, or unmapped where the port is not present. -/
theorem busPadRead_effect {k : Instr} {p : PortIx} {s : State} (hk : k = .rdPad0 ∧ p = 0 ∨ k = .rdPad1 ∧ p = 1) :
    Effect k s (busPadRead p s) := by
  unfold busPadRead
  split
  · next q hq => exact .busPad hk hq
  · next hq =>
    refine .unmappedRead ?_ ?_ ?_
    · rcases hk with ⟨rfl, -⟩ | ⟨rfl, -⟩ <;> simp [IsBusRead, opClass]
    · rcases hk with ⟨rfl, -⟩ | ⟨rfl, -⟩ <;> simp
    · intro p' hp
      have : p' = p := by rcases hk with ⟨rfl, rfl⟩ | ⟨rfl, rfl⟩ <;> simpa [IsSerialRead] using hp
      rw [this]; exact hq

/-- The inversion of `exec`: a next state is one of the effects. -/
theorem exec_effect {i : Instr} {s t : State} (h : exec i s = .next t) : Effect i s t := by
  cases i
  case wrCmd a v => exact claimedWrite_effect h (by simp [IsBusWrite, opClass]) rfl fun _ => .latch
  case setBank0 a v => exact dataStore_effect 0 h (by simp [IsBusWrite, opClass]) rfl rfl
  case setBank1 a v => exact dataStore_effect 1 h (by simp [IsBusWrite, opClass]) rfl rfl
  case setBank2 a v => exact dataStore_effect 2 h (by simp [IsBusWrite, opClass]) rfl rfl
  case setBank3 a v => exact dataStore_effect 3 h (by simp [IsBusWrite, opClass]) rfl rfl
  case setBank4 a v => exact dataStore_effect 4 h (by simp [IsBusWrite, opClass]) rfl rfl
  case setBank5 a v => exact dataStore_effect 5 h (by simp [IsBusWrite, opClass]) rfl rfl
  case setBank6 a v => exact dataStore_effect 6 h (by simp [IsBusWrite, opClass]) rfl rfl
  case setBank7 a v => exact dataStore_effect 7 h (by simp [IsBusWrite, opClass]) rfl rfl
  case setLowCtl0 a v => exact dataStore_effect 8 h (by simp [IsBusWrite, opClass]) rfl rfl
  case setLowCtl1 a v => exact dataStore_effect 9 h (by simp [IsBusWrite, opClass]) rfl rfl
  case setRegA a v => exact dataStore_effect 10 h (by simp [IsBusWrite, opClass]) rfl rfl
  case setRegB a v => exact dataStore_effect 11 h (by simp [IsBusWrite, opClass]) rfl rfl
  case setRegC a v => exact dataStore_effect 12 h (by simp [IsBusWrite, opClass]) rfl rfl
  case setIrqCtl a v => exact claimedWrite_effect h (by simp [IsBusWrite, opClass]) rfl fun _ => .irqControl
  case setCntLo a v => exact claimedWrite_effect h (by simp [IsBusWrite, opClass]) rfl fun _ => .countLow
  case setCntHi a v => exact claimedWrite_effect h (by simp [IsBusWrite, opClass]) rfl fun _ => .countHigh
  case wrLow a v => exact claimedWrite_effect h (by simp [IsBusWrite, opClass]) rfl fun _ => .lowWrite
  case rdLow a =>
    cases Host.Outcome.next.inj h
    rcases claimedRead_cases .lowPage a (readLowWindow a) s with ⟨b, h1, h2, h3⟩ | ⟨h1, h3⟩
    · rw [h3]; exact .lowRead h1 h2
    · rw [h3]; exact .unmappedRead (by simp [IsBusRead, opClass]) (by rintro _ b ⟨⟩; exact h1 b) (by simp [IsSerialRead])
  case rdCmdData a => cases h; exact .unmappedRead (by simp [IsBusRead, opClass]) (by simp) (by simp [IsSerialRead])
  case rdUnmapped a => cases h; exact .unmappedRead (by simp [IsBusRead, opClass]) (by simp) (by simp [IsSerialRead])
  case wrUnmapped a v => cases h; exact .unmappedWrite (by simp [IsBusWrite, opClass]) (by simp [writeClaim])
  case wrStrobe v => cases h; exact .strobeAll
  case rdPad0 => cases Host.Outcome.next.inj h; exact busPadRead_effect (.inl ⟨rfl, rfl⟩)
  case rdPad1 => cases Host.Outcome.next.inj h; exact busPadRead_effect (.inr ⟨rfl, rfl⟩)
  case clk =>
    simp only [exec, execClk] at h
    split at h
    · next hb => cases h; exact .pulseNoBoard hb
    · next b hb => cases h; rw [Variant.caps_eq]; exact .pulse hb
  case rstSoft =>
    simp only [exec, execRstSoft] at h
    split at h
    · next b hb => cases h; exact .soft hb
    · next hb => cases h; exact .softNoBoard hb
  case rstHard =>
    simp only [exec, execRstHard] at h
    split at h
    · next b hb => cases h; exact .hard hb
    · next hb => cases h; exact .hardNoBoard hb
  case syncFrameStart => cases h; rw [syncBoard_eq]; exact .sync (by simp)
  case syncFrameEnd => cases h; rw [syncBoard_eq]; exact .sync (by simp)
  case syncAddrEdge => cases h; rw [syncBoard_eq]; exact .sync (by simp)
  case syncStrobeEdge => cases h; rw [syncBoard_eq]; exact .sync (by simp)
  case bf p => obtain ⟨q, hq, rfl⟩ := withPort_next h; exact .beginFrame hq
  case pw p v => obtain ⟨q, hq, rfl⟩ := withPort_next h; exact .strobeOne hq
  case prLow p => obtain ⟨q, hq, rfl⟩ := withPort_next h; exact .serial hq
  case prHigh p => obtain ⟨q, hq, rfl⟩ := withPort_next h; exact .polled hq
  case input p mask aux => obtain ⟨q, hq, rfl⟩ := withPort_next h; exact .lines hq
  case mode p m => obtain ⟨q, hq, rfl⟩ := withPort_next h; exact .setMode hq
  case save =>
    simp only [exec, execSave] at h
    split at h <;> cases h
    next hc => exact .saved (by simpa using hc)
  case load snap tag =>
    simp only [exec, execLoad, loadSnapshot] at h
    split at h
    · cases h
    next hc =>
    have hc' : s.inCycle = false := by simpa using hc
    split at h
    · cases h; exact .loadRaised hc'
    next hd =>
    split at h
    · next e he =>
      obtain ⟨g, f, rfl⟩ := parseAll_error he
      cases h
      exact .loadRaised hc'
    · next sts he => cases h; exact .loaded hc' hd he
  case new ctx =>
    simp only [exec, execNew] at h
    split at h
    · cases h
    next hb =>
    cases hv : ctx.variantSelector with
    | reference =>
      simp only [hv, supported] at h
      rw [show (Variant.reference.caps s.params).ranges = referenceRanges s.params from rfl, bindAll_reference] at h
      cases hw : s.params.windowsApart
      · simp [hw] at h
      · simp only [hw, if_true] at h
        cases h
        exact .constructed hb hv hw
    | other n =>
      simp only [hv, supported, raise] at h
      cases h
      exact .newRaised hb hv
  case del =>
    simp only [exec, execDel] at h
    split at h
    · next hb => cases h; exact .destroyNoBoard hb
    · next b hb => cases h; exact .destroyed hb
  case range low high hd =>
    simp only [exec, execRange] at h
    split at h
    · cases h
    next bs hb =>
    split at h
    · next bs' hr => cases h; exact .bound hb hr
    · cases h

end Sys2Proof.Machine
end

