-- ==== Sys2Proof/Laws/PerInstr.lean ====
section
/-! SUPPORT. Statements for all instructions, one lemma per constructor.

`Kind`: the trace word of an operation has a `kind` of its class (spec/30_encoding.md R92); RANGE has no word. -/

namespace Sys2Proof.Laws

open Sys2Proof Sys2Proof.Machine

/-- The `kind` codes of a class of operations (spec/30_encoding.md R92). -/
def kindsOf : OpClass → List (BitVec 4)
  | .commandWrite | .registerWrite | .timerWrite | .lowWrite | .strobeWrite | .unmappedWrite => [0x1]
  | .lowRead | .padRead | .unmappedRead => [0x0]
  | .pulse => [0x2]
  | .reset => [0x3]
  | .sync => [0x4]
  | .port => [0x5, 0x6, 0x7, 0xC, 0xD]
  | .snapshot => [0x8, 0x9]
  | .construct => [0xA]
  | .destroy => [0xB]

def Kind.Statement (i : Instr) : Prop := ∀ (c : Params) (it : TraceItem), encode c i = some it → wordKind it.word ∈ kindsOf (opClass i)

theorem wordKind_mem {k sub : BitVec 4} {a : Addr} {d : Byte} {o : Operand} {l : List (BitVec 4)} {it : TraceItem}
    (hk : l.contains k = true) (h : (⟨mkWord k sub a d, o⟩ : TraceItem) = it) : wordKind it.word ∈ l := by
  subst h
  rw [wordKind_mkWord]
  simpa using hk

theorem Kind.wrCmd (a : Addr) (v : Byte) : Kind.Statement (.wrCmd a v) :=
  fun _ _ h => wordKind_mem (k := 0x1) rfl (Option.some.inj h)

theorem Kind.setBank0 (a : Addr) (v : Byte) : Kind.Statement (.setBank0 a v) :=
  fun _ _ h => wordKind_mem (k := 0x1) rfl (Option.some.inj h)

theorem Kind.setBank1 (a : Addr) (v : Byte) : Kind.Statement (.setBank1 a v) :=
  fun _ _ h => wordKind_mem (k := 0x1) rfl (Option.some.inj h)

theorem Kind.setBank2 (a : Addr) (v : Byte) : Kind.Statement (.setBank2 a v) :=
  fun _ _ h => wordKind_mem (k := 0x1) rfl (Option.some.inj h)

theorem Kind.setBank3 (a : Addr) (v : Byte) : Kind.Statement (.setBank3 a v) :=
  fun _ _ h => wordKind_mem (k := 0x1) rfl (Option.some.inj h)

theorem Kind.setBank4 (a : Addr) (v : Byte) : Kind.Statement (.setBank4 a v) :=
  fun _ _ h => wordKind_mem (k := 0x1) rfl (Option.some.inj h)

theorem Kind.setBank5 (a : Addr) (v : Byte) : Kind.Statement (.setBank5 a v) :=
  fun _ _ h => wordKind_mem (k := 0x1) rfl (Option.some.inj h)

theorem Kind.setBank6 (a : Addr) (v : Byte) : Kind.Statement (.setBank6 a v) :=
  fun _ _ h => wordKind_mem (k := 0x1) rfl (Option.some.inj h)

theorem Kind.setBank7 (a : Addr) (v : Byte) : Kind.Statement (.setBank7 a v) :=
  fun _ _ h => wordKind_mem (k := 0x1) rfl (Option.some.inj h)

theorem Kind.setLowCtl0 (a : Addr) (v : Byte) : Kind.Statement (.setLowCtl0 a v) :=
  fun _ _ h => wordKind_mem (k := 0x1) rfl (Option.some.inj h)

theorem Kind.setLowCtl1 (a : Addr) (v : Byte) : Kind.Statement (.setLowCtl1 a v) :=
  fun _ _ h => wordKind_mem (k := 0x1) rfl (Option.some.inj h)

theorem Kind.setRegA (a : Addr) (v : Byte) : Kind.Statement (.setRegA a v) :=
  fun _ _ h => wordKind_mem (k := 0x1) rfl (Option.some.inj h)

theorem Kind.setRegB (a : Addr) (v : Byte) : Kind.Statement (.setRegB a v) :=
  fun _ _ h => wordKind_mem (k := 0x1) rfl (Option.some.inj h)

theorem Kind.setRegC (a : Addr) (v : Byte) : Kind.Statement (.setRegC a v) :=
  fun _ _ h => wordKind_mem (k := 0x1) rfl (Option.some.inj h)

theorem Kind.setIrqCtl (a : Addr) (v : Byte) : Kind.Statement (.setIrqCtl a v) :=
  fun _ _ h => wordKind_mem (k := 0x1) rfl (Option.some.inj h)

theorem Kind.setCntLo (a : Addr) (v : Byte) : Kind.Statement (.setCntLo a v) :=
  fun _ _ h => wordKind_mem (k := 0x1) rfl (Option.some.inj h)

theorem Kind.setCntHi (a : Addr) (v : Byte) : Kind.Statement (.setCntHi a v) :=
  fun _ _ h => wordKind_mem (k := 0x1) rfl (Option.some.inj h)

theorem Kind.wrLow (a : Addr) (v : Byte) : Kind.Statement (.wrLow a v) :=
  fun _ _ h => wordKind_mem (k := 0x1) rfl (Option.some.inj h)

theorem Kind.rdLow (a : Addr) : Kind.Statement (.rdLow a) :=
  fun _ _ h => wordKind_mem (k := 0x0) rfl (Option.some.inj h)

theorem Kind.rdCmdData (a : Addr) : Kind.Statement (.rdCmdData a) :=
  fun _ _ h => wordKind_mem (k := 0x0) rfl (Option.some.inj h)

theorem Kind.wrStrobe (v : Byte) : Kind.Statement (.wrStrobe v) :=
  fun _ _ h => wordKind_mem (k := 0x1) rfl (Option.some.inj h)

theorem Kind.rdPad0 : Kind.Statement .rdPad0 :=
  fun _ _ h => wordKind_mem (k := 0x0) rfl (Option.some.inj h)

theorem Kind.rdPad1 : Kind.Statement .rdPad1 :=
  fun _ _ h => wordKind_mem (k := 0x0) rfl (Option.some.inj h)

theorem Kind.rdUnmapped (a : Addr) : Kind.Statement (.rdUnmapped a) :=
  fun _ _ h => wordKind_mem (k := 0x0) rfl (Option.some.inj h)

theorem Kind.wrUnmapped (a : Addr) (v : Byte) : Kind.Statement (.wrUnmapped a v) :=
  fun _ _ h => wordKind_mem (k := 0x1) rfl (Option.some.inj h)

theorem Kind.clk : Kind.Statement .clk :=
  fun _ _ h => wordKind_mem (k := 0x2) rfl (Option.some.inj h)

theorem Kind.rstSoft : Kind.Statement .rstSoft :=
  fun _ _ h => wordKind_mem (k := 0x3) rfl (Option.some.inj h)

theorem Kind.rstHard : Kind.Statement .rstHard :=
  fun _ _ h => wordKind_mem (k := 0x3) rfl (Option.some.inj h)

theorem Kind.syncFrameStart : Kind.Statement .syncFrameStart :=
  fun _ _ h => wordKind_mem (k := 0x4) rfl (Option.some.inj h)

theorem Kind.syncFrameEnd : Kind.Statement .syncFrameEnd :=
  fun _ _ h => wordKind_mem (k := 0x4) rfl (Option.some.inj h)

theorem Kind.syncAddrEdge : Kind.Statement .syncAddrEdge :=
  fun _ _ h => wordKind_mem (k := 0x4) rfl (Option.some.inj h)

theorem Kind.syncStrobeEdge : Kind.Statement .syncStrobeEdge :=
  fun _ _ h => wordKind_mem (k := 0x4) rfl (Option.some.inj h)

theorem Kind.bf (p : PortIx) : Kind.Statement (.bf p) :=
  fun _ _ h => wordKind_mem (k := 0x5) rfl (Option.some.inj h)

theorem Kind.pw (p : PortIx) (v : Byte) : Kind.Statement (.pw p v) :=
  fun _ _ h => wordKind_mem (k := 0x6) rfl (Option.some.inj h)

theorem Kind.prLow (p : PortIx) : Kind.Statement (.prLow p) :=
  fun _ _ h => wordKind_mem (k := 0x7) rfl (Option.some.inj h)

theorem Kind.prHigh (p : PortIx) : Kind.Statement (.prHigh p) :=
  fun _ _ h => wordKind_mem (k := 0x7) rfl (Option.some.inj h)

theorem Kind.save : Kind.Statement .save :=
  fun _ _ h => wordKind_mem (k := 0x8) rfl (Option.some.inj h)

theorem Kind.load (snap : Snapshot) (formatVersionTag : Nat) : Kind.Statement (.load snap formatVersionTag) :=
  fun _ _ h => wordKind_mem (k := 0x9) rfl (Option.some.inj h)

theorem Kind.new (ctx : Context) : Kind.Statement (.new ctx) :=
  fun _ _ h => wordKind_mem (k := 0xA) rfl (Option.some.inj h)

theorem Kind.del : Kind.Statement .del :=
  fun _ _ h => wordKind_mem (k := 0xB) rfl (Option.some.inj h)

theorem Kind.input (p : PortIx) (mask : Byte) (aux : Bool) : Kind.Statement (.input p mask aux) :=
  fun _ _ h => wordKind_mem (k := 0xC) rfl (Option.some.inj h)

theorem Kind.mode (p : PortIx) (m : FilterMode) : Kind.Statement (.mode p m) :=
  fun _ _ h => wordKind_mem (k := 0xD) rfl (Option.some.inj h)

theorem Kind.range (low high : Addr) (h : Handler) : Kind.Statement (.range low high h) := fun _ _ h => nomatch h

end Sys2Proof.Laws
end

