-- ==== Sys2Proof/Tests/Slice0.lean ====
section
/-! SUPPORT. Tests: the smoke test of WellFormed, decoded words written out bit by bit from spec/30_encoding.md R91 to R93,
single steps whose expected results come from spec/95_test_vectors.md (the vector is named before each test) or from the
rule named, and a witness for the hypotheses of every statement that has some. -/

namespace Sys2Proof.Tests

open Sys2Proof Sys2Proof.Machine

/-! ### Helpers -/

/-- A ROM of 8 pages with 0x30 at page 3, offset 0x10, and work RAM present (95_test_vectors.md P3, V-R6). -/
def ctxRam : Context :=
  { Context.blank with programROM := ⟨0x10000, [(0x6010, 0x30)]⟩, ramPresenceFlags := ⟨true, []⟩ }

/-- The reference Board right after its construction. -/
def board0 : Board := newBoard Params.default ctxRam .reference (referenceRanges Params.default)

/-- The "reset state" of the vectors: after NEW. -/
def live : State := (activate board0 State.reset.start).start

/-- `live` with another Board, the collaborator and the line agreeing with it. -/
def withBoard (b : Board) : State := { live with board := some b, irqLine := b.irqReq, banks := b.regs }

/-- `live` with the given ports. -/
def withPorts (ps : List Port) : State := { live with ports := ps }

/-- The answer is a next state of which `f` holds. -/
def nextIs (a : Answer) (f : State → Bool) : Bool :=
  match a with
  | .next t => f t
  | _ => false

/-- A field of the Board of a state. -/
def onBoard (t : State) (f : Board → Bool) : Bool :=
  match t.board with
  | some b => f b
  | none => false

/-- A field of the port `k` of a state. -/
def portIs (t : State) (k : Nat) (f : Port → Bool) : Bool :=
  match t.ports[k]? with
  | some q => f q
  | none => false

/-- The decoding context without a Board, with the latch at `l`, two ports, port 1 with its strobe high. -/
def ctxAt (l : BitVec 4) : DecodeCtx := ⟨Params.default, [], l, [false, true]⟩

/-- The decoding of a word without operand. -/
def dec (l : BitVec 4) (w : Word) : Option Instr :=
  match decode (ctxAt l) ⟨w, .none⟩ with
  | .ok i => some i
  | .error _ => none

/-- Why a word is refused. -/
def why (w : Word) (o : Operand) : Option DecodeReject :=
  match decode (ctxAt 0) ⟨w, o⟩ with
  | .ok _ => none
  | .error r => some r

/-! ### The parameters: one inconsistent choice for each check -/

theorem test_params_refuses_inconsistent_windows :
    ({ Params.default with lowHi := 0x5FFF } : Params).wf = false ∧
    ({ Params.default with cmdLo := 0x7FFF } : Params).wf = false ∧
    ({ Params.default with dataHi := 0x9FFF } : Params).wf = false ∧
    ({ Params.default with lowLo := 0x5000 } : Params).wf = false := by decide

theorem test_params_refuses_shared_places :
    ({ Params.default with padData1Addr := 0x4016 } : Params).wf = false ∧
    ({ Params.default with srcBit := 0 } : Params).wf = false ∧
    ({ Params.default with btnUp := 7 } : Params).wf = false ∧
    ({ Params.default with auxPos := 0 } : Params).wf = false := by decide

/-- Parameters whose low and command windows meet in one address. -/
def meeting : State := State.resetWith { Params.default with cmdLo := 0x7FFF } 1

/-- Other parameters: the enable in bit 1, the command port at 0xC000, registers reset to 0xFF. -/
def otherParams : Params := { Params.default with cmdLo := 0xC000, cmdHi := 0xCFFF, enBit := 1, regReset := 0xFF }

/-- A machine with other parameters is that machine: its window, its register-D layout (30_encoding.md R94, R100). -/
theorem test_other_parameters :
    otherParams.wf = true ∧
    nextIs (step { State.resetWith otherParams 1 with trace := [⟨0xA0000000, .context ctxRam⟩] }) (fun s =>
      (onBoard s fun b => b.reg 0xC == 0xFF) &&
      nextIs (step { s with trace := [plainItem 0x1 0 0xC000 0x0D] }) fun t =>
        (onBoard t fun b => b.latch == 0xD) &&
        nextIs (step { t with trace := [plainItem 0x1 0 0xA000 0x82] }) fun u =>
          onBoard u fun b => b.timer == ⟨true, true, 0⟩) = true := by decide

/-- Parameters that put the strobe port in the command window, the data port of port 0 in the low window, and that of port 1
in the data window, and a machine with them, without a Board and with one. -/
def padsInWindows : Params :=
  { Params.default with padStrobeAddr := 0x8000, padData0Addr := 0x6000, padData1Addr := 0xA000 }

def padMachine : State := State.resetWith padsInWindows 2
def padMachineBoard : State := { padMachine with board := some (newBoard padsInWindows ctxRam .reference (referenceRanges padsInWindows)) }

/-- 40_dispatch.md R124: a binding with a read handler goes first; one with only a write handler is no claim on a read. -/
theorem test_read_binding_before_pad :
    readRow padMachine.decodeCtx 0x6000 = .rdPad0 ∧ readRow padMachineBoard.decodeCtx 0x6000 = .rdLow 0x6000 ∧
    readRow padMachineBoard.decodeCtx 0xA000 = .rdPad1 ∧ padsInWindows.wf = true := by decide

/-- 40_dispatch.md R125: a binding with a write handler goes first, so the step loads the latch and no strobe rises. -/
theorem test_write_binding_before_strobe :
    nextIs (step { padMachine with trace := [plainItem 0x1 0 0x8000 0x0D] }) (fun t => portIs t 0 fun q => q.strobe) = true ∧
    nextIs (step { padMachineBoard with trace := [plainItem 0x1 0 0x8000 0x0D] }) (fun t =>
      (onBoard t fun b => b.latch == 0xD) && portIs t 0 fun q => !q.strobe) = true := by decide

/-! ### WellFormed: one ill-formed term for each check -/

theorem test_wf_refuses_command_outside_window :
    (Instr.wrCmd 0x7FFF 0).wf Params.default 4 = false ∧ (Instr.wrCmd 0xA000 0).wf Params.default 4 = false := by decide

theorem test_wf_refuses_data_outside_window :
    (Instr.setBank0 0x9FFF 0).wf Params.default 4 = false ∧ (Instr.setBank1 0xC000 0).wf Params.default 4 = false ∧
    (Instr.setBank2 0 0).wf Params.default 4 = false ∧ (Instr.setBank3 0 0).wf Params.default 4 = false ∧ (Instr.setBank4 0 0).wf Params.default 4 = false ∧
    (Instr.setBank5 0 0).wf Params.default 4 = false ∧ (Instr.setBank6 0 0).wf Params.default 4 = false ∧ (Instr.setBank7 0 0).wf Params.default 4 = false ∧
    (Instr.setLowCtl0 0 0).wf Params.default 4 = false ∧ (Instr.setLowCtl1 0 0).wf Params.default 4 = false ∧ (Instr.setRegA 0 0).wf Params.default 4 = false ∧
    (Instr.setRegB 0 0).wf Params.default 4 = false ∧ (Instr.setRegC 0 0).wf Params.default 4 = false ∧ (Instr.setIrqCtl 0 0).wf Params.default 4 = false ∧
    (Instr.setCntLo 0 0).wf Params.default 4 = false ∧ (Instr.setCntHi 0 0).wf Params.default 4 = false := by decide

theorem test_wf_refuses_low_outside_window :
    (Instr.wrLow 0x5FFF 0).wf Params.default 4 = false ∧ (Instr.rdLow 0x8000).wf Params.default 4 = false := by decide

theorem test_wf_refuses_write_only_read_outside_windows :
    (Instr.rdCmdData 0x7FFF).wf Params.default 4 = false ∧ (Instr.rdCmdData 0xC000).wf Params.default 4 = false := by decide

theorem test_wf_refuses_claimed_address_as_unmapped :
    (Instr.rdUnmapped 0x6000).wf Params.default 4 = false ∧ (Instr.rdUnmapped 0xBFFF).wf Params.default 4 = false ∧
    (Instr.rdUnmapped 0x4017).wf Params.default 2 = false ∧ (Instr.wrUnmapped 0x4016 0).wf Params.default 4 = false ∧
    (Instr.wrUnmapped 0x8000 0).wf Params.default 4 = false := by decide

theorem test_wf_refuses_absent_ports :
    (Instr.bf 1).wf Params.default 1 = false ∧ (Instr.pw 2 0).wf Params.default 2 = false ∧ (Instr.prLow 3).wf Params.default 3 = false ∧
    (Instr.prHigh 3).wf Params.default 1 = false ∧ (Instr.input 1 0 false).wf Params.default 1 = false ∧ (Instr.mode 2 .off).wf Params.default 2 = false ∧
    Instr.rdPad0.wf Params.default 0 = false ∧ Instr.rdPad1.wf Params.default 1 = false := by decide

theorem test_wf_refuses_noncanonical_rom :
    (Instr.new { Context.blank with programROM := ⟨4, [(2, 1), (1, 1)]⟩ }).wf Params.default 4 = false ∧
    (Instr.new { Context.blank with programROM := ⟨4, [(1, 0)]⟩ }).wf Params.default 4 = false ∧
    (Instr.new { Context.blank with characterROM := ⟨4, [(4, 1)]⟩ }).wf Params.default 4 = false := by decide

theorem test_wf_refuses_inverted_range : (Instr.range 0x6001 0x6000 (.writes .lowRam)).wf Params.default 4 = false := by decide

/-! ### Decoding -/

/-- Bus writes: `{kind 0001, sub 0000, addr, data}`. -/
theorem test_decode_bus_writes :
    dec 0 0b0001_0000_1000000000000000_00001101 = some (.wrCmd 0x8000 0x0D) ∧
    dec 0 0b0001_0000_0110000000010000_01011010 = some (.wrLow 0x6010 0x5A) ∧
    dec 0 0b0001_0000_0100000000010110_00000001 = some (.wrStrobe 0x01) ∧
    dec 0 0b0001_0000_0100000000010111_00000001 = some (.wrUnmapped 0x4017 0x01) := by decide

/-- One word, sixteen rows: the latch tells them apart (30_encoding.md R96). -/
theorem test_decode_data_rows :
    let w : Word := 0b0001_0000_1010000000000000_10000001
    dec 0x0 w = some (.setBank0 0xA000 0x81) ∧ dec 0x1 w = some (.setBank1 0xA000 0x81) ∧
    dec 0x2 w = some (.setBank2 0xA000 0x81) ∧ dec 0x3 w = some (.setBank3 0xA000 0x81) ∧
    dec 0x4 w = some (.setBank4 0xA000 0x81) ∧ dec 0x5 w = some (.setBank5 0xA000 0x81) ∧
    dec 0x6 w = some (.setBank6 0xA000 0x81) ∧ dec 0x7 w = some (.setBank7 0xA000 0x81) ∧
    dec 0x8 w = some (.setLowCtl0 0xA000 0x81) ∧ dec 0x9 w = some (.setLowCtl1 0xA000 0x81) ∧
    dec 0xA w = some (.setRegA 0xA000 0x81) ∧ dec 0xB w = some (.setRegB 0xA000 0x81) ∧
    dec 0xC w = some (.setRegC 0xA000 0x81) ∧ dec 0xD w = some (.setIrqCtl 0xA000 0x81) ∧
    dec 0xE w = some (.setCntLo 0xA000 0x81) ∧ dec 0xF w = some (.setCntHi 0xA000 0x81) := by decide

/-- Bus reads: `{kind 0000, sub 0000, addr, data 0}`. -/
theorem test_decode_bus_reads :
    dec 0 0b0000_0000_0110000000010000_00000000 = some (.rdLow 0x6010) ∧
    dec 0 0b0000_0000_1001111111111111_00000000 = some (.rdCmdData 0x9FFF) ∧
    dec 0 0b0000_0000_1010000000000000_00000000 = some (.rdCmdData 0xA000) ∧
    dec 0 0b0000_0000_0100000000010110_00000000 = some .rdPad0 ∧
    dec 0 0b0000_0000_0100000000010111_00000000 = some .rdPad1 ∧
    dec 0 0b0000_0000_1100000000000000_00000000 = some (.rdUnmapped 0xC000) := by decide

/-- CLK, RST, SYNC: kinds 0010, 0011, 0100. -/
theorem test_decode_control :
    dec 0 0b0010_0000_0000000000000000_00000000 = some .clk ∧
    dec 0 0b0011_0000_0000000000000000_00000000 = some .rstSoft ∧
    dec 0 0b0011_0001_0000000000000000_00000000 = some .rstHard ∧
    dec 0 0b0100_0000_0000000000000000_00000000 = some .syncFrameStart ∧
    dec 0 0b0100_0001_0000000000000000_00000000 = some .syncFrameEnd ∧
    dec 0 0b0100_0010_0000000000000000_00000000 = some .syncAddrEdge ∧
    dec 0 0b0100_0011_0000000000000000_00000000 = some .syncStrobeEdge := by decide

/-- The port operations; port 1's strobe is high, so its data-port read is PR.HIGH. -/
theorem test_decode_ports :
    dec 0 0b0101_0001_0000000000000000_00000000 = some (.bf 1) ∧
    dec 0 0b0110_0000_0000000000000000_11111110 = some (.pw 0 0xFE) ∧
    dec 0 0b0111_0000_0000000000000000_00000000 = some (.prLow 0) ∧
    dec 0 0b0111_0001_0000000000000000_00000000 = some (.prHigh 1) ∧
    dec 0 0b1100_0000_0000000000000001_11001001 = some (.input 0 0xC9 true) ∧
    dec 0 0b1101_0001_0000000000000000_00000101 = some (.mode 1 .latestRepress) := by decide

/-- SAVE, LOAD, NEW, DEL: kinds 1000, 1001, 1010, 1011; LOAD and NEW with their separate operands. -/
theorem test_decode_host :
    dec 0 0b1000_0000_0000000000000000_00000000 = some .save ∧
    dec 0 0b1011_0000_0000000000000000_00000000 = some .del ∧
    decode (ctxAt 0) ⟨0b1001_0000_0000000000000000_00000000, .snapshot [] 7⟩ = .ok (.load [] 7) ∧
    decode (ctxAt 0) ⟨0b1010_0000_0000000000000000_00000000, .context ctxRam⟩ = .ok (.new ctxRam) := by
  refine ⟨by decide, by decide, rfl, rfl⟩

/-- RANGE has no trace word (40_dispatch.md R122). -/
theorem test_range_has_no_word : encode Params.default (.range 0x6000 0x7FFF (.reads .lowPage)) = none := rfl

/-- Each item of the list of 30_encoding.md R111 is refused by its name. -/
theorem test_decode_refuses_by_name :
    why 0xE0000000 .none = some .unknownKind ∧ why 0x31000001 .none = some .unusedField ∧
    why 0x32000000 .none = some .badReset ∧ why 0x44000000 .none = some .badEvent ∧
    why 0x52000000 .none = some .badPort ∧ why 0xD0000006 .none = some .badMode ∧
    why 0x01600000 .none = some .busSub ∧ why 0x00600001 .none = some .unusedField ∧
    why 0xC0000200 .none = some .unusedField ∧ why 0xA0000000 .none = some .operandMissing ∧
    why 0x20000000 (.snapshot [] 0) = some .operandUnused := by decide

/-! ### The step -/

/-- A placed table word is what the next step runs, and it is taken off the trace. -/
theorem test_step_runs_placed_word :
    nextIs (step (State.reset.withFetchWord 32 0x50000000)) (fun t => t.trace == [] && t.result == .none) = true ∧
    nextIs (step (State.reset.withFetchWord 32 0xA0000000)) (fun t => onBoard t fun b => b.latch == 0) = true := by
  decide

/-- A word that is no operation is refused. -/
theorem test_step_refuses_unknown_word :
    step (State.reset.withFetchWord 32 0xF0000000) = .refused (.notAnOperation .unknownKind) := rfl

/-! ### Registers and the timer -/

/-- V-D4. -/
theorem test_wrCmd_window_end_ignores_high_nibble :
    nextIs (exec (.wrCmd 0x9FFF 0x3E) live) (fun t => onBoard t fun b => b.latch == 0xE) = true := by decide

/-- V-R4, each from the reset state. -/
theorem test_setBank_stores :
    nextIs (exec (.setBank0 0xA000 0x10) live) (fun t => onBoard t fun b => b.reg 0 == 0x10) = true ∧
    nextIs (exec (.setBank1 0xA000 0x11) live) (fun t => onBoard t fun b => b.reg 1 == 0x11) = true ∧
    nextIs (exec (.setBank2 0xA000 0x12) live) (fun t => onBoard t fun b => b.reg 2 == 0x12) = true ∧
    nextIs (exec (.setBank4 0xA000 0x14) live) (fun t => onBoard t fun b => b.reg 4 == 0x14) = true ∧
    nextIs (exec (.setBank5 0xA000 0x15) live) (fun t => onBoard t fun b => b.reg 5 == 0x15) = true ∧
    nextIs (exec (.setBank6 0xA000 0x16) live) (fun t => onBoard t fun b => b.reg 6 == 0x16) = true ∧
    nextIs (exec (.setBank7 0xA000 0x17) live) (fun t => onBoard t fun b => b.reg 7 == 0x17) = true := by decide

/-- V-R2, V-R3: the last address of the window, the call, the latch stays. -/
theorem test_setBank3_tells_collaborator :
    nextIs (exec (.setBank3 0xBFFF 0x9C) (withBoard { board0 with latch := 3 })) (fun t =>
      t.calls == [.bankSelect 3 0x9C] && onBoard t fun b => b.reg 3 == 0x9C && b.latch == 3) = true := by decide

/-- V-R5. -/
theorem test_setLowCtl_and_spares_store :
    nextIs (exec (.setLowCtl0 0xA000 0x03) live) (fun t => onBoard t fun b => b.reg 8 == 0x03) = true ∧
    nextIs (exec (.setLowCtl1 0xA000 0xFF) live) (fun t => onBoard t fun b => b.reg 9 == 0xFF) = true ∧
    nextIs (exec (.setRegA 0xA000 0x11) live) (fun t => onBoard t fun b => b.reg 0xA == 0x11) = true ∧
    nextIs (exec (.setRegB 0xA000 0x22) live) (fun t => onBoard t fun b => b.reg 0xB == 0x22) = true ∧
    nextIs (exec (.setRegC 0xA000 0x33) live) (fun t => onBoard t fun b => b.reg 0xC == 0x33) = true := by decide

/-- A Board with the request pending and the counter running at `c`. -/
def pending (c : Count) : Board :=
  { board0 with timer := { enabled := true, src := true, count := c }, irqReq := true }

/-- V-T10: the source off keeps the request. -/
theorem test_setIrqCtl_source_off_keeps_request :
    nextIs (exec (.setIrqCtl 0xA000 0x01) (withBoard (pending 0xFFFE))) (fun t =>
      t.irqLine && onBoard t fun b => b.irqReq && b.timer == ⟨true, false, 0xFFFE⟩) = true := by decide

/-- V-T7, V-T11: enable off releases; bits 6:1 are ignored. -/
theorem test_setIrqCtl_enable_off_releases :
    nextIs (exec (.setIrqCtl 0xA000 0xFE) (withBoard (pending 0xFFFE))) (fun t =>
      !t.irqLine && onBoard t fun b => !b.irqReq && b.timer == ⟨false, true, 0xFFFE⟩) = true := by decide

/-- V-T8. -/
theorem test_setCntLo_replaces_low_byte :
    nextIs (exec (.setCntLo 0xA000 0x34) (withBoard (pending 0xFFFE))) (fun t =>
      !t.irqLine && onBoard t fun b => !b.irqReq && b.timer.count == 0xFF34) = true := by decide

/-- V-T9. -/
theorem test_setCntHi_replaces_high_byte :
    nextIs (exec (.setCntHi 0xA000 0x12) (withBoard (pending 0xFFFE))) (fun t =>
      !t.irqLine && onBoard t fun b => !b.irqReq && b.timer.count == 0x12FE) = true := by decide

/-- V-T4: enabled at count 0, the pulse fires. -/
theorem test_clk_fires_at_zero :
    nextIs (exec .clk (withBoard { pending 0 with irqReq := false })) (fun t =>
      t.result == .fired true && t.irqLine && onBoard t fun b => b.irqReq && b.timer.count == 0xFFFF) = true := by decide

/-- V-T5: the next pulse does not fire, and the request stays. -/
theorem test_clk_after_firing_keeps_request :
    nextIs (exec .clk (withBoard (pending 0xFFFF))) (fun t =>
      t.result == .fired false && t.irqLine && onBoard t fun b => b.irqReq && b.timer.count == 0xFFFE) = true := by decide

/-! ### The low window and unmapped accesses -/

/-- V-R6, V-R7: page 3, and page 0x0B modulo 8. -/
theorem test_rdLow_reads_page_modulo_count :
    nextIs (exec (.rdLow 0x6010) (withBoard (board0.setReg 8 0x03))) (fun t => t.result == .data 0x30) = true ∧
    nextIs (exec (.rdLow 0x6010) (withBoard (board0.setReg 8 0x0B))) (fun t => t.result == .data 0x30) = true := by decide

/-- V-R10: RAM selected and not enabled is open bus. -/
theorem test_rdLow_open_bus :
    exec (.rdLow 0x7FFF) (withBoard (board0.setReg 8 0x40)) =
      .next { withBoard (board0.setReg 8 0x40) with
        inCycle := true, result := .data Config.openBus, calls := [.lowRead 0x7FFF] } := rfl

/-- V-R9. -/
theorem test_wrLow_stores_at_offset :
    nextIs (exec (.wrLow 0x7FFF 0xA5) (withBoard (board0.setReg 8 0xC0))) (fun t => t.wram == [(0x1FFF, 0xA5)]) = true := by
  decide

/-- V-R12, V-R8: no timer write, and with ROM shown no write at all. -/
theorem test_wrLow_touches_no_register :
    nextIs (exec (.wrLow 0x6000 0x81) (withBoard { board0 with latch := 0xD })) (fun t =>
      t.wram == [] && t.board == some { board0 with latch := 0xD }) = true := by decide

/-- V-D3, V-D1. -/
theorem test_unclaimed_reads_return_openBus :
    exec (.rdCmdData 0x8000) live = .next { live with inCycle := true, result := .data Config.openBus } ∧
    exec (.rdUnmapped 0xC000) live = .next { live with inCycle := true, result := .data Config.openBus } := ⟨rfl, rfl⟩

/-- V-D2. -/
theorem test_wrUnmapped_changes_nothing :
    exec (.wrUnmapped 0xC000 0x0D) live = .next { live with inCycle := true } := rfl

/-! ### Reset, sync, construction -/

/-- The start of V-D6 and V-D7. -/
def busy : State :=
  { withBoard { (board0.setReg 5 0x77) with latch := 5, timer := ⟨true, true, 0x1234⟩, irqReq := true } with
    aux := true
    ports := [{ Port.fresh with strobe := true, sr := 0x0F, state := 0x0F, mode := .neutral, buttonsIn := 0x0F }] }

/-- V-D6. -/
theorem test_rstSoft_preserves_registers :
    nextIs (exec .rstSoft busy) (fun t => !t.irqLine && !t.aux &&
      (onBoard t fun b => !b.irqReq && b.latch == 5 && b.reg 5 == 0x77 && b.timer == ⟨true, true, 0x1234⟩) &&
      portIs t 0 fun q => q == { Port.fresh with mode := .neutral, buttonsIn := 0x0F }) = true := by decide

/-- V-D7. -/
theorem test_rstHard_restores_defaults :
    nextIs (exec .rstHard busy) (fun t => !t.irqLine && !t.aux && t.board == some board0 &&
      t.calls == (List.finRange 13).map (fun i => CollCall.bankSelect i 0) &&
      portIs t 0 fun q => q == { Port.fresh with mode := .neutral, buttonsIn := 0x0F }) = true := by decide

/-- V-D8. -/
theorem test_sync_changes_nothing :
    exec .syncFrameStart busy = .next busy ∧ exec .syncFrameEnd busy = .next busy ∧
    exec .syncAddrEdge busy = .next busy ∧ exec .syncStrobeEdge busy = .next busy := ⟨rfl, rfl, rfl, rfl⟩

/-- V-D5, V-D10. -/
theorem test_new_reports_unsupported_and_refuses_second :
    nextIs (exec (.new { ctxRam with variantSelector := .other 7 }) State.reset) (fun t =>
      t.board == none && t.result == .error (.unsupportedVariant (.other 7))) = true ∧
    exec (.new ctxRam) live = .refused .boardActive := ⟨by decide, rfl⟩

/-- P1, step 1: the reset state. -/
theorem test_new_gives_reset_state :
    nextIs (exec (.new ctxRam) State.reset) (fun t => onBoard t fun b =>
      b.latch == 0 && b.timer == ⟨false, false, 0⟩ && b.regs.toList == List.replicate 13 0 && !b.irqReq) = true := by decide

/-- V-D9. -/
theorem test_del_releases_line :
    nextIs (exec .del (withBoard (pending 5))) (fun t => t.board == none && !t.irqLine) = true := by decide

/-- 40_dispatch.md R122: overlapping ranges of one direction are refused, of different directions are not. -/
theorem test_range_checks_overlap :
    nextIs (exec (.range 0x7FFF 0x8000 (.reads .lowPage))
      { State.reset with construction := some [⟨0x6000, 0x7FFF, .writes .lowRam⟩] })
      (fun t => (t.construction.map List.length) == some 2) = true ∧
    exec (.range 0x7FFF 0x8000 (.writes .dataPort))
      { State.reset with construction := some [⟨0x6000, 0x7FFF, .writes .lowRam⟩] } = .refused .illFormedRange := ⟨by decide, rfl⟩

/-! ### Controller -/

/-- A port with its strobe high and the lines `l`. -/
def strobed (l : Byte) : Port := { Port.fresh with strobe := true, buttonsIn := l }

/-- V-C6, second write: one write reaches both ports. -/
theorem test_wrStrobe_reaches_both_ports :
    nextIs (exec (.wrStrobe 0) (withPorts [strobed 0x01, strobed 0x02])) (fun t =>
      (portIs t 0 fun q => q.sr == 0xFE && !q.strobe) && portIs t 1 fun q => q.sr == 0xFD && !q.strobe) = true := by decide

/-- P2, step 7. -/
theorem test_rdPad0_returns_button_and_aux :
    nextIs (exec .rdPad0 { withPorts [{ Port.fresh with sr := 0xF6 }] with aux := true })
      (fun t => t.result == .data 0x05) = true := by decide

/-- V-C7. -/
theorem test_rdPad1_absent_is_unmapped :
    exec .rdPad1 (withPorts [Port.fresh]) =
      .next { withPorts [Port.fresh] with inCycle := true, result := .data Config.openBus } := rfl

/-- V-C9. -/
theorem test_bf_clears_aux :
    exec (.bf 0) { live with aux := true } = .next { live with aux := false } := rfl

/-- V-C4: bit 0 only, one poll. -/
theorem test_pw_falling_edge_polls :
    nextIs (exec (.pw 0 0xFE) (withPorts [strobed 0x80])) (fun t => portIs t 0 fun q =>
      !q.strobe && q.state == 0x80 && q.sr == 0x7F && q.prevRaw == 0x80) = true := by decide

/-- V-C2: no edge, no poll. -/
theorem test_pw_rising_edge_does_not_poll :
    nextIs (exec (.pw 0 1) (withPorts [{ Port.fresh with buttonsIn := 0xFF }])) (fun t => portIs t 0 fun q =>
      q.strobe && q.state == 0 && q.sr == 0xFF) = true := by decide

/-- V-C8 on port 0; V-C10: the auxiliary bit shows on port 0 only. -/
theorem test_prLow_aux_on_port_zero_only :
    nextIs (exec (.prLow 0) { live with aux := true }) (fun t => t.result == .data 0x04) = true ∧
    nextIs (exec (.prLow 1) { live with aux := true }) (fun t => t.result == .data 0x00) = true := by decide

/-- V-C11, V-C12: it polls, without the auxiliary bit, and leaves the shift register. -/
theorem test_prHigh_polls_and_keeps_sr :
    nextIs (exec (.prHigh 0) { withPorts [{ strobed 0x01 with sr := 0xF6 }] with aux := true }) (fun t =>
      t.result == .data 0x01 && portIs t 0 fun q => q.sr == 0xF6 && q.state == 0x01) = true := by decide

/-- 43_controller.md R197. -/
theorem test_input_drives_lines :
    nextIs (exec (.input 0 0xC9 true) live) (fun t =>
      !t.aux && portIs t 0 fun q => q.buttonsIn == 0xC9 && q.auxIn && q.state == 0) = true := by decide

/-- V-F7. -/
theorem test_mode_clears_masks :
    nextIs (exec (.mode 0 .latestPress) (withPorts [{ Port.fresh with hmask := 0x80, vmask := 0x10 }])) (fun t =>
      portIs t 0 fun q => q.mode == .latestPress && q.hmask == 0 && q.vmask == 0) = true := by decide

/-- S4, V-F9, V-F10. -/
theorem test_filter_neutral_and_off :
    filterMask Params.default .neutral 0xC0 0 0 0 = ⟨0x00, 0, 0⟩ ∧ filterMask Params.default .neutral 0xFF 0 0 0 = ⟨0x0F, 0, 0⟩ ∧
    filterMask Params.default .off 0xFF 0 0 0 = ⟨0xFF, 0, 0⟩ := by decide

/-- V-F4, third poll: raw C0 after 80. -/
theorem test_filter_both_held_with_edge :
    (filterMask Params.default .firstPress 0xC0 0x80 0x80 0).out = 0x80 ∧ (filterMask Params.default .latestPress 0xC0 0x80 0x80 0).out = 0x40 ∧
    (filterMask Params.default .firstRepress 0xC0 0x80 0x80 0).out = 0x80 ∧
    (filterMask Params.default .latestRepress 0xC0 0x80 0x80 0).out = 0x40 := by decide

/-- V-F2, third poll, and V-F1, third poll: a stale hold is not reported. -/
theorem test_filter_stale_hold :
    (filterMask Params.default .latestRepress 0x40 0xC0 0x80 0).out = 0x00 ∧ (filterMask Params.default .firstRepress 0x80 0xC0 0x40 0).out = 0x00 ∧
    (filterMask Params.default .latestPress 0x40 0xC0 0x80 0).out = 0x40 := by decide

/-- V-F5, fourth poll: both axes, with A. -/
theorem test_filter_both_axes :
    filterMask Params.default .firstRepress 0xA1 0xE0 0x40 0x10 = ⟨0x01, 0, 0⟩ ∧
    filterMask Params.default .latestPress 0xA1 0xE0 0x80 0x20 = ⟨0xA1, 0x80, 0x20⟩ := by decide

/-! ### Snapshots -/

/-- V-S2 and V-S3 in one state. -/
theorem test_save_layouts :
    nextIs (exec .save { withBoard { pending 0xFFFF with latch := 0xD } with
        ports := [{ Port.fresh with strobe := true, sr := 0xF6 }] }) (fun t =>
      t.result == .snapshot [⟨.board, 0, [0x0D, 0, 0, 0, 0, 0, 0, 0, 0, 0, 0, 0, 0, 0, 0x81, 0xFF, 0xFF, 0x01]⟩,
        ⟨.pad 0, 0, [0x01, 0x09]⟩]) = true := by decide

/-- V-S4 and V-S11 in one snapshot. -/
theorem test_load_layouts :
    nextIs (exec (.load [⟨.board, 0, [0x0F, 1, 2, 3, 4, 5, 6, 7, 8, 9, 0xA, 0xB, 0xC, 0xD, 0x7F, 0x34, 0x12, 0xFE]⟩,
        ⟨.pad 0, 3, [0xFE, 0x09, 0xAA, 0xBB]⟩] 0) live) (fun t =>
      t.calls.length == 13 && !t.irqLine &&
      (onBoard t fun b => b.latch == 0xF && b.reg 0 == 1 && b.reg 0xC == 0xD && b.timer == ⟨true, false, 0x1234⟩) &&
      portIs t 0 fun q => q.sr == 0xF6 && !q.strobe && q.state == 0) = true := by decide

/-- V-S7, V-S8, V-S10: staged, duplicate, unknown. -/
theorem test_load_errors_and_skips :
    exec (.load [⟨.board, 0, List.replicate 18 0xFF⟩, ⟨.pad 0, 0, [0x01]⟩] 0) live =
      .next { live with result := .error (.formatError (.pad 0) .truncated) } ∧
    exec (.load [⟨.pad 0, 0, [0, 0]⟩, ⟨.pad 0, 0, [1, 0]⟩] 0) live =
      .next { live with result := .error (.formatError (.pad 0) .duplicateTag) } ∧
    exec (.load [⟨.other 1 2 3 4, 7, [0xDE, 0xAD]⟩] 0) live = .next live := ⟨rfl, rfl, rfl⟩

/-! ### Witnesses: the hypotheses of each statement can be met together -/

theorem live_inv : live.Inv :=
  ⟨by decide, by decide, by decide, by unfold Port.Legal; decide, rfl, fun _ hb => Option.some.inj hb ▸ ⟨rfl, rfl, rfl⟩, rfl, rfl⟩

/-- A trace of one item, at the reset state or at `live`. -/
def item (w : Word) : TraceItem := ⟨w, .none⟩
def pendingItem (s : State) (it : TraceItem) : State := { s with trace := [it] }

theorem pending_inv (it : TraceItem) : (pendingItem live it).Inv :=
  ⟨live_inv.params_wf, live_inv.ports_pos, live_inv.ports_le, live_inv.ports_legal, live_inv.line, live_inv.agrees, live_inv.built,
    live_inv.ram⟩

theorem witness_DecodingAnEncodedInstructionGivesItBack :
    (Instr.setIrqCtl 0xBFFF 0xFF).wf Params.default 2 = true ∧ (Instr.setIrqCtl 0xBFFF 0xFF).selectedBy (ctxAt 0xD) = true ∧
    encode Params.default (.setIrqCtl 0xBFFF 0xFF) = some (item 0x10BFFFFF) ∧ Params.default.wf = true := by decide

theorem witness_DecodedInstructionEncodesToItsItem :
    decode (ctxAt 0) (item 0x71000000) = .ok (.prHigh 1) ∧ (ctxAt 0).bindings = [] ∧
    live.decodeCtx.bindings = referenceRanges live.decodeCtx.params ∧ ∀ ctx, Instr.prHigh 1 ≠ .new ctx :=
  ⟨rfl, rfl, rfl, by simp⟩

/-- Each clause at a boundary value, with four ports present. -/
theorem witness_WordsThatAreNoOperationsAreRefused :
    (wordKind 0xE0000000 = 0xE ∧ wordKind 0xF0000000 = 0xF) ∧
    (wordKind 0x32000000 = 0x3 ∧ 1 < (wordSub 0x32000000).toNat) ∧
    (wordKind 0x44000000 = 0x4 ∧ 3 < (wordSub 0x44000000).toNat) ∧
    (wordKind 0x54000000 = 0x5 ∧ State.reset.ports.length ≤ (wordSub 0x54000000).toNat) ∧
    (wordKind 0xD0000006 = 0xD ∧ 5 < (wordData 0xD0000006).toNat) ∧
    (wordKind 0x11A00000 = 0x1 ∧ wordSub 0x11A00000 ≠ 0) ∧
    (wordKind 0x00600001 = 0x0 ∧ wordData 0x00600001 ≠ 0) ∧
    (wordKind 0x20000001 = 0x2 ∧ wordData 0x20000001 ≠ 0) ∧
    (wordKind 0x70000100 = 0x7 ∧ wordAddr 0x70000100 ≠ 0) ∧
    (wordKind 0x60000100 = 0x6 ∧ wordAddr 0x60000100 ≠ 0) ∧
    (wordKind 0xC0000200 = 0xC ∧ 1 < (wordAddr 0xC0000200).toNat) ∧
    (wordKind 0x20000000 = 0x2 ∧ (⟨0x20000000, .snapshot [] 0⟩ : TraceItem).operand ≠ .none) ∧
    (wordKind 0x90000000 = 0x9 ∧ ∀ snap tag, (⟨0x90000000, .context ctxRam⟩ : TraceItem).operand ≠ .snapshot snap tag) ∧
    (wordKind 0xA0000000 = 0xA ∧ ∀ ctx, (item 0xA0000000).operand ≠ .context ctx) ∧
    (pendingItem State.reset (item 0xE0000000)).trace = [item 0xE0000000] := by
  refine ⟨by decide, by decide, by decide, by decide, by decide, by decide, by decide, by decide, by decide, by decide,
    by decide, by decide, ⟨by decide, by simp⟩, ⟨by decide, by simp [item]⟩, rfl⟩

theorem witness_StepRunsTheDecodedInstruction :
    (pendingItem live (item 0x20000000)).trace = [item 0x20000000] ∧
    decode (pendingItem live (item 0x20000000)).decodeCtx (item 0x20000000) = .ok .clk ∧
    encode Params.default .clk = some (item 0x20000000) ∧ Instr.clk.wf live.params live.ports.length = true ∧
    Instr.clk.selectedBy live.decodeCtx = true ∧ live.trace = [] ∧ live.params.wf = true :=
  ⟨rfl, rfl, rfl, rfl, rfl, rfl, by decide⟩

theorem witness_StepTakesOperationsInOrder :
    (pendingItem live (item 0x20000000)).trace = [item 0x20000000] ∧
    ∃ t, step (pendingItem live (item 0x20000000)) = .next t := ⟨rfl, _, rfl⟩

theorem witness_BusWordsFollowTheFrameworkDispatch :
    (pendingItem padMachineBoard (plainItem 0x0 0 0x6000 0)).trace = [plainItem 0x0 0 0x6000 0] ∧
    (pendingItem live (plainItem 0x1 0 0x8000 0x0D)).trace = [plainItem 0x1 0 0x8000 0x0D] := ⟨rfl, rfl⟩

theorem witness_CommandWriteLoadsTheLatch :
    live.board = some board0 ∧ findWrite board0.bindings 0x8000 = some .commandPort ∧
    findWrite board0.bindings 0x9FFF = some .commandPort := by decide

/-- Of `StoresRegister`, for the bank-select, the low-control and the spare rows. -/
theorem witness_BankSelectWritesStoreAndTell :
    live.board = some board0 ∧ findWrite board0.bindings 0xA000 = some .dataPort ∧
    findWrite board0.bindings 0xBFFF = some .dataPort := by decide

theorem witness_LowControlAndSpareWritesStoreAndTell :
    live.board = some board0 ∧ findWrite board0.bindings 0xA123 = some .dataPort := by decide

theorem witness_TimerRegisterWritesSetTheirFieldsAndRelease :
    (withBoard (pending 1)).board = some (pending 1) ∧ findWrite (pending 1).bindings 0xBFFF = some .dataPort := by decide

/-- With the latch at both ends of its range. -/
theorem witness_DataWriteReachesTheLatchedRegister :
    (∃ t, exec (dataRow board0.latch 0xA000 0x12) live = .next t) ∧ live.board = some board0 ∧
    findWrite board0.bindings 0xA000 = some .dataPort ∧
    ∃ t, exec (dataRow 0xF 0xA000 0x12) (withBoard { board0 with latch := 0xF }) = .next t :=
  ⟨⟨_, rfl⟩, rfl, rfl, _, rfl⟩

theorem witness_CommandAndDataWritesAreIdempotent :
    IsWindowWrite (.setIrqCtl 0xA000 0x81) ∧ ∃ t, exec (.setIrqCtl 0xA000 0x81) live = .next t :=
  ⟨by simp [IsWindowWrite, opClass], _, rfl⟩

theorem witness_WithoutABoardEverythingIsUnmapped :
    State.reset.board = none ∧ IsWindowWrite (.wrLow 0x6000 0) ∧ IsWindowWrite (.wrCmd 0x8000 0) :=
  ⟨rfl, by simp [IsWindowWrite, opClass], by simp [IsWindowWrite, opClass]⟩

/-- Each clause: ROM of exactly one page, RAM enabled, RAM not enabled, RAM absent. -/
theorem witness_LowWindowReadReturnsTheExposedByte :
    findRead board0.bindings 0x6000 = some .lowPage ∧ findRead board0.bindings 0x7FFF = some .lowPage ∧
    ((board0.regs[8]).getLsbD 6 = false ∧ numPages Params.default ⟨0x2000, []⟩ ≠ 0 ∧
      romIndex Params.default ⟨0x2000, []⟩ 0x3F 0x1FFF < 0x2000) ∧
    (((board0.setReg 8 0xC0).regs[8]).getLsbD 6 = true ∧ ((board0.setReg 8 0xC0).regs[8]).getLsbD 7 = true ∧
      board0.ctx.ramPresenceFlags.workRam = true) ∧
    (((board0.setReg 8 0x40).regs[8]).getLsbD 6 = true ∧ ((board0.setReg 8 0x40).regs[8]).getLsbD 7 = false) ∧
    Context.blank.ramPresenceFlags.workRam = false := by decide

theorem witness_LowWindowWriteStoresOneByteOrNothing :
    (withBoard (board0.setReg 8 0xC0)).board = some (board0.setReg 8 0xC0) ∧
    findWrite (board0.setReg 8 0xC0).bindings 0x6000 = some .lowRam ∧
    findWrite board0.bindings 0x7FFF = some .lowRam ∧
    (((board0.setReg 8 0xC0).regs[8]).getLsbD 6 = true ∧ ((board0.setReg 8 0xC0).regs[8]).getLsbD 7 = true ∧
      (board0.setReg 8 0xC0).ctx.ramPresenceFlags.workRam = true) ∧
    (board0.regs[8]).getLsbD 6 = false := by decide

theorem withBoard_inv {b : Board} (hv : supported b.ctx.variantSelector = some b.variant)
    (hb : b.bindings = (b.variant.caps Params.default).ranges) : (withBoard b).Inv :=
  ⟨live_inv.params_wf, live_inv.ports_pos, live_inv.ports_le, live_inv.ports_legal, rfl,
    fun _ h => Option.some.inj h ▸ ⟨hv, hb, rfl⟩, rfl, rfl⟩

theorem witness_LowWindowReadsBackWhatWasWritten :
    (withBoard (board0.setReg 8 0xC0)).Inv ∧ lowMode ((board0.setReg 8 0xC0).reg 8) = .ram ∧
    (board0.setReg 8 0xC0).ctx.ramPresenceFlags.workRam = true ∧ inLowWindow Params.default 0x6000 = true ∧
    inLowWindow Params.default 0x7FFF = true ∧
    ∃ t u, exec (.wrLow 0x6000 0x5A) (withBoard (board0.setReg 8 0xC0)) = .next t ∧
      exec (.rdLow 0x7FFF) t = .next u :=
  ⟨withBoard_inv rfl rfl, rfl, rfl, by decide, by decide, _, _, rfl, rfl⟩

theorem witness_UnmappedWriteIsANoOp :
    live.boundWrite 0x5FFF = none ∧ live.boundWrite 0xC000 = none ∧ (0xC000 : Addr) ≠ live.params.padStrobeAddr := by decide

theorem witness_OnlyLowWindowWritesChangeTheRam :
    (∃ t, exec (.wrLow 0x6000 1) (withBoard (board0.setReg 8 0xC0)) = .next t) ∧ lowOffset Params.default 0x6000 = 0 ∧
    ∃ t, exec .clk live = .next t := ⟨⟨_, rfl⟩, by decide, _, rfl⟩

theorem witness_ClockPulseSurfacesThePolicyResult :
    (withBoard (pending 0)).board = some (pending 0) ∧ State.reset.board = none := by decide

/-- With an unrelated access among the pulses; the boundary count 0 needs none. -/
theorem witness_TimerFiresOnThePulseAfterItsCount :
    (withBoard (pending 1)).board = some (pending 1) ∧ (pending 1).timer.enabled = true ∧ (pending 1).timer.src = true ∧
    (IsUnrelated (.rdLow 0x6000) ∧ IsPulse .clk = true) ∧
    [Instr.rdLow 0x6000, .clk].countP IsPulse = (pending 1).timer.count.toNat ∧
    ([] : List Instr).countP IsPulse = (pending 0).timer.count.toNat := by
  unfold IsUnrelated IsBusWrite IsBusRead
  decide

theorem witness_OnlyListedOperationsChangeTheRequest :
    ∃ t, exec (.setCntLo 0xA000 0) (withBoard (pending 5)) = .next t ∧ t.irqReq ≠ (withBoard (pending 5)).irqReq :=
  ⟨_, rfl, by decide⟩

theorem witness_BoardRegistersHaveOnlyTheirListedWriters :
    ∃ t b', exec (.wrCmd 0x8000 5) live = .next t ∧ live.board = some board0 ∧ t.board = some b' ∧
      Instr.wrCmd 0x8000 5 ≠ .rstHard ∧ ∀ snap tag, Instr.wrCmd 0x8000 5 ≠ .load snap tag :=
  ⟨_, _, rfl, rfl, rfl, by simp, by simp⟩

theorem witness_ConstructionGivesTheResetBoard :
    live.board = some board0 ∧ State.reset.board = none ∧ ctxRam.variantSelector = .reference ∧
    State.reset.params.windowsApart = true ∧ meeting.params.lowLo ≤ meeting.params.cmdHi ∧
    meeting.params.cmdLo ≤ meeting.params.lowHi := by decide

theorem witness_UnsupportedVariantIsReported :
    State.reset.board = none ∧
    ∃ t, exec (.new { ctxRam with variantSelector := .other 0 }) State.reset = .next t ∧
      t.result = .error (.unsupportedVariant (.other 0)) := ⟨rfl, _, rfl, rfl⟩

/-- Ranges that touch and ranges that meet in one address. -/
theorem witness_RangeBindsOnlyInsideAConstruction :
    ((0x8000 : Addr) ≤ 0x8000 ∧ handlersClash (.reads .lowPage) (.reads .lowPage) = true ∧ (0x7FFF : Addr) < 0x8000) ∧
    ((0x7FFF : Addr) < 0x8000 ∧ (0x6000 : Addr) ≤ 0x8000 ∧ (0x7FFF : Addr) ≤ 0x7FFF) ∧
    ({ State.reset with construction := some [⟨0x6000, 0x7FFF, .reads .lowPage⟩] } : State).construction =
      some [⟨0x6000, 0x7FFF, .reads .lowPage⟩] ∧
    State.reset.construction = none := by decide

theorem witness_DestructionReleasesTheLine : live.board = some board0 ∧ State.reset.board = none := by decide

theorem witness_HardResetRestoresTheDefaults : (withBoard (pending 5)).board = some (pending 5) := rfl

theorem witness_SoftResetPreservesTheBoard : (withBoard (pending 7)).board = some (pending 7) := rfl

theorem witness_HardResetIsReconstruction :
    (withBoard (pending 5)).Inv ∧ (withBoard (pending 5)).board = some (pending 5) := ⟨withBoard_inv rfl rfl, rfl⟩

/-- Two states that differ in the Board's registers, the line and the shared bit. -/
theorem witness_HardResetForgetsThePast :
    let s₁ := { withBoard (pending 5) with aux := true }
    s₁.board.map (fun b => (b.ctx, b.variant, b.bindings)) = live.board.map (fun b => (b.ctx, b.variant, b.bindings)) ∧
    s₁.construction = live.construction ∧
    s₁.ports.map (fun q => (q.mode, q.buttonsIn, q.auxIn)) = live.ports.map (fun q => (q.mode, q.buttonsIn, q.auxIn)) ∧
    s₁.wram = live.wram ∧ s₁.trace = live.trace ∧ s₁.board ≠ none := by decide

theorem witness_BusClockResetAndSyncAlwaysComplete :
    IsBusWrite (.wrStrobe 0) ∧ IsBusRead .rdPad1 ∧ IsResetOrSync .rstSoft := by
  simp [IsBusWrite, IsBusRead, IsResetOrSync, opClass]

theorem witness_ErrorsChangeNoState :
    ∃ t, exec (.load [⟨.pad 0, 0, [0x01]⟩] 0) live = .next t ∧ t.result = .error (.formatError (.pad 0) .truncated) :=
  ⟨_, rfl, rfl⟩

theorem witness_BindingsAndContextAreFixed :
    (∃ t b', exec .rstHard live = .next t ∧ live.board = some board0 ∧ t.board = some b') ∧
    ∃ t b, exec (.new ctxRam) State.reset = .next t ∧ t.board = some b := ⟨⟨_, _, rfl, rfl, rfl⟩, _, _, rfl, rfl⟩

/-- A present port, the first and the last; an absent one. -/
theorem witness_BeginFrameClearsTheAuxiliaryBit : live.ports[0]? = some Port.fresh ∧ live.ports[3]? = some Port.fresh := by
  decide

theorem witness_StrobeWritePollsOnTheFallingEdge :
    (withPorts [strobed 0x80]).ports[0]? = some (strobed 0x80) ∧ (strobed 0x80).strobe = true ∧
    (0xFE : Byte).getLsbD 0 = false ∧ ¬(Port.fresh.strobe = true ∧ (0 : Byte).getLsbD 0 = false) := by decide

theorem witness_SerialReadReturnsTheInvertedLowBit : live.ports[(3 : PortIx).val]? = some Port.fresh := rfl

theorem witness_StrobeHighReadPolls : (withPorts [strobed 1]).ports[(0 : PortIx).val]? = some (strobed 1) := rfl

theorem witness_InputAndModeWriteTheirOwnFields : live.ports[(2 : PortIx).val]? = some Port.fresh := rfl

theorem witness_AbsentPortsAreRefused :
    NamesPort (.bf 1) 1 ∧ (withPorts [Port.fresh]).ports.length ≤ (1 : PortIx).val := ⟨.inl rfl, by decide⟩

theorem witness_BusStrobeWriteReachesEveryPort : live.ports[(3 : PortIx).val]? = some Port.fresh := rfl

theorem witness_BusPadReadsFollowTheStrobe :
    live.ports[(1 : PortIx).val]? = some Port.fresh ∧ (withPorts [Port.fresh]).ports[(1 : PortIx).val]? = none := by decide

/-- With a change of the lines and another port's poll between the reads. -/
theorem witness_ReadOutEnumeratesTheButtonsThenExhausts :
    let s := withPorts [strobed 0x09, strobed 0x01]
    let is : List Instr := [.prLow 0, .input 0 0xF6 true, .rdPad0, .prHigh 1, .clk, .setCntLo 0xA000 1]
    s.params.wf = true ∧ s.ports[(0 : PortIx).val]? = some (strobed 0x09) ∧ (strobed 0x09).strobe = true ∧
    (0 : Byte).getLsbD 0 = false ∧ (∀ i ∈ is, InReadOut 0 i) ∧ is.countP (IsSerialRead 0) = 2 ∧
    ∃ t, execAll (.pw 0 0 :: is) s = .next t :=
  ⟨by decide, rfl, rfl, rfl, by simp [InReadOut, opClass], by decide, _, rfl⟩

theorem witness_PortsAreIndependentButForTheAuxiliaryBit :
    NamesPort (.pw 0 0) 0 ∧ ∃ t, exec (.pw 0 0) (withPorts [strobed 1, strobed 2]) = .next t :=
  ⟨.inr (.inl ⟨0, rfl⟩), _, rfl⟩

theorem witness_BoardOperationsLeaveTheControllersAlone : IsBoardOp .clk ∧ ∃ t, exec .clk live = .next t :=
  ⟨.inl (by decide), _, rfl⟩

theorem witness_ModesAndLinesAreHostControlled :
    (∃ t, exec (.pw 0 0) (withPorts [strobed 1]) = .next t) ∧ (∀ p m, Instr.pw 0 0 ≠ .mode p m) ∧
    ∀ p m x, Instr.pw 0 0 ≠ .input p m x := ⟨⟨_, rfl⟩, by simp, by simp⟩

theorem witness_NeutralModeCancelsOpposites : IsAxisPair (btnLeft Params.default) (btnRight Params.default) ∧ IsAxisPair (btnUp Params.default) (btnDown Params.default) :=
  ⟨⟨6, 7, by decide, rfl, rfl⟩, ⟨4, 5, by decide, rfl, rfl⟩⟩

/-- Each row of the table, on the Left and Right axis. -/
theorem witness_AxisFollowsItsTable :
    IsAxisPair 0x40 0x80 ∧ ((0x0F : Byte) &&& 0xC0 = 0) ∧ ((0x4F : Byte) &&& 0xC0 = 0x40) ∧
    ((0xCF : Byte) &&& 0xC0 = 0xC0) ∧ ((0xC0 : Byte) &&& ~~~((0x40 : Byte) &&& 0xC0) = 0x80) ∧
    ¬((0xC0 : Byte) &&& ~~~((0x00 : Byte) &&& 0xC0) = 0x40 ∨ (0xC0 : Byte) &&& ~~~((0x00 : Byte) &&& 0xC0) = 0x80) :=
  ⟨⟨6, 7, by decide, rfl, rfl⟩, by decide⟩

theorem witness_PollKeepsTheFilterInvariants :
    let c := Params.default
    let q : Port := { Port.fresh with hmask := 0x80, vmask := 0x10, mode := .firstRepress, buttonsIn := 0xF0 }
    c.wf = true ∧ q.hmask = btnRight c ∧ q.vmask = btnUp c ∧ q.mode ≠ .off ∧ q.mode ≠ .neutral := by decide

theorem witness_SaveReturnsAllOwnedState : live.inCycle = false ∧ live.ports.length ≤ 4 := by decide

/-- A board chunk of exactly 18 bytes and a controller chunk of exactly 2; without a Board and with one port, short
chunks of the absent components. -/
theorem witness_LoadReplacesExactlyTheCarriedFields :
    (let snap : Snapshot := [⟨.board, 0, List.replicate 18 0xFF⟩, ⟨.pad 3, 9, [0, 0]⟩, ⟨.other 0 0 0 0, 0, []⟩]
     live.inCycle = false ∧ (snap.map Chunk.tag).Nodup ∧
     (∀ c ∈ snap, c.tag = .board → live.board.isSome = true → 18 ≤ c.payload.length) ∧
     ∀ c ∈ snap, ∀ p, c.tag = .pad p → p.val < live.ports.length → 2 ≤ c.payload.length) ∧
    (let s := State.resetWith Params.default 1
     let snap : Snapshot := [⟨.board, 0, []⟩, ⟨.pad 1, 0, [0]⟩]
     s.inCycle = false ∧ (snap.map Chunk.tag).Nodup ∧
     (∀ c ∈ snap, c.tag = .board → s.board.isSome = true → 18 ≤ c.payload.length) ∧
     ∀ c ∈ snap, ∀ p, c.tag = .pad p → p.val < s.ports.length → 2 ≤ c.payload.length) := by decide

theorem witness_LoadingASaveIsTheIdentity :
    (withBoard (pending 5)).Inv ∧ (withBoard (pending 5)).inCycle = false := ⟨withBoard_inv rfl rfl, rfl⟩

theorem witness_UnknownChunksAreSkipped :
    ∀ d ∈ ([⟨.pad 0, 0, [1, 2]⟩] : Snapshot) ++ [⟨.other 1 2 3 5, 0, []⟩], d.tag ≠ .other 1 2 3 4 := by decide

/-- Each clause: 17 bytes, 1 byte, a tag twice. -/
theorem witness_MalformedLoadsChangeNothing :
    live.inCycle = false ∧
    ((⟨.board, 0, List.replicate 17 0⟩ : Chunk).tag = .board ∧ live.board.isSome = true ∧
      (⟨.board, 0, List.replicate 17 0⟩ : Chunk).payload.length < 18) ∧
    ((3 : PortIx).val < live.ports.length ∧ (⟨.pad 3, 0, [0]⟩ : Chunk).payload.length < 2) ∧
    ∃ d ∈ ([⟨.other 1 2 3 4, 5, []⟩] : Snapshot), d.tag = (⟨.other 1 2 3 4, 6, [7]⟩ : Chunk).tag := by
  refine ⟨rfl, by decide, by decide, _, .head _, rfl⟩

theorem witness_SnapshotsOnlyAtCycleBoundaries :
    ({ live with inCycle := true } : State).inCycle = true ∧ IsBusRead (.rdLow 0x6000) ∧
    (∃ t, exec (.rdLow 0x6000) live = .next t) ∧ ∃ t, exec .clk { live with inCycle := true } = .next t :=
  ⟨rfl, by simp [IsBusRead, opClass], ⟨_, rfl⟩, _, rfl⟩

theorem witness_ResetMeetsTheInvariant : otherParams.wf = true ∧ 1 ≤ 1 ∧ 4 ≤ 4 := by decide

theorem witness_EveryStepKeepsTheInvariant :
    (pendingItem live (item 0x10A00081)).Inv ∧ ∃ t, step (pendingItem live (item 0x10A00081)) = .next t :=
  ⟨pending_inv _, _, rfl⟩

end Sys2Proof.Tests
end

/-! PROOFS of the dispatch statements (spec/40_dispatch.md R127, R130, R131): sync, the write nothing claims, and the
completion of bus, clock, reset and sync operations. -/

namespace Sys2Proof.Machine

/-! ### Sync -/

/-- Settles O34: at every checkpoint the Board is handed back as it was (R130), so only the outputs are cleared. -/
theorem syncChangesNothing : Obligations.SyncChangesNothing := by
  intro s
  have noop (ev : SyncEvent) : (.next (syncBoard ev s) : Answer) = .next { s with result := .none, calls := [] } :=
    congrArg Host.Outcome.next (syncBoard_eq ev s)
  exact ⟨noop .frameStart, noop .frameEnd, noop .addrEdge, noop .strobeEdge⟩

/-! ### The write that nothing claims -/

theorem unmappedWrite_eq (s : State) : unmappedWrite s = { s with inCycle := true, result := .none, calls := [] } := rfl

/-- Whatever register the latch selects, a data-port write where nothing is bound is unmapped. -/
theorem exec_dataRow_unbound {s : State} {a : Addr} (e : s.boundWrite a = none) (latch : BitVec 4) (v : Byte) :
    exec (dataRow latch a v) s = .next (unmappedWrite s) := by
  unfold dataRow
  split <;> exact congrArg Host.Outcome.next (claimedWrite_unbound e .dataPort _)

theorem exec_handlerRow_unbound {s : State} {a : Addr} (e : s.boundWrite a = none) (latch : BitVec 4) (v : Byte)
    (h : WriteHandler) : exec (handlerRow latch a v h) s = .next (unmappedWrite s) := by
  cases h with
  | lowRam => exact congrArg Host.Outcome.next (claimedWrite_unbound e .lowRam _)
  | commandPort => exact congrArg Host.Outcome.next (claimedWrite_unbound e .commandPort _)
  | dataPort => exact exec_dataRow_unbound e latch v

/-- The row that the windows alone pick finds no binding either (log 16). -/
theorem exec_windowWriteRow_unbound {s : State} {a : Addr} (e : s.boundWrite a = none) (c : Params) (latch : BitVec 4)
    (v : Byte) : exec (windowWriteRow c latch a v) s = .next (unmappedWrite s) := by
  unfold windowWriteRow
  split
  · exact exec_handlerRow_unbound e latch v .lowRam
  split
  · exact exec_handlerRow_unbound e latch v .commandPort
  split
  · exact exec_handlerRow_unbound e latch v .dataPort
  · rfl

/-- Settles O19: with no binding and no strobe port at the address the decoder is left with the window's row, which is
unmapped. -/
theorem unmappedWriteIsANoOp : Obligations.UnmappedWriteIsANoOp := by
  intro s a v
  refine ⟨fun latch e ha => ⟨true, ?_⟩, true, rfl⟩
  have free : findWrite s.bindings a = none := by rw [findWrite_bindings, e]; rfl
  have row : writeRow { s.decodeCtx with latch := latch } a v = windowWriteRow s.params latch a v := by
    rw [writeRow_free v free]
    exact if_neg ha
  rw [row, exec_windowWriteRow_unbound e, unmappedWrite_eq]

/-! ### What completing operations return -/

/-- A claimed write returns nothing when its handler's effect does, for the unmapped write returns nothing. -/
theorem claimedWrite_result {h : WriteHandler} {a : Addr} {effect : Board → State → State} {s : State}
    (he : ∀ b, (effect b s.beginBus).result = .none) : (claimedWrite h a effect s).result = .none := by
  rcases claimedWrite_cases h a effect s with ⟨b, -, -, eq⟩ | ⟨-, eq⟩
  · rw [eq, he]
  · rw [eq]; rfl

theorem storeIrqControl_result (v : Byte) (b : Board) (s : State) : (storeIrqControl v b s).result = s.result := by
  rw [storeIrqControl_eq]

/-- A read of the low window returns a byte, its handler's or the open bus. -/
theorem claimedRead_readLowWindow_result (a : Addr) (s : State) :
    ∃ v, (claimedRead .lowPage a (readLowWindow a) s).result = .data v := by
  rcases claimedRead_cases .lowPage a (readLowWindow a) s with ⟨b, -, -, eq⟩ | ⟨-, eq⟩
  · rw [eq]; exact ⟨_, rfl⟩
  · rw [eq]; exact ⟨_, rfl⟩

theorem padRead_result (p : PortIx) (q : Port) (s : State) : ∃ v, (padRead p q s).result = .data v := by
  unfold padRead
  split <;> exact ⟨_, rfl⟩

/-- A controller data-port read on the bus returns a byte, whether or not its port is present. -/
theorem busPadRead_result (p : PortIx) (s : State) : ∃ v, (busPadRead p s).result = .data v := by
  cases hq : s.ports[p.val]? with
  | some q => rw [busPadRead_present hq]; exact padRead_result p q s.beginBus
  | none => rw [busPadRead_absent hq]; exact ⟨_, rfl⟩

theorem exec_busWrite_returns_none {i : Instr} (hi : IsBusWrite i) (s : State) :
    ∃ t, exec i s = .next t ∧ t.result = .none := by
  cases i
  case wrCmd | wrLow | setCntLo | setCntHi | setBank0 | setBank1 | setBank2 | setBank3 | setBank4 | setBank5 | setBank6
      | setBank7 | setLowCtl0 | setLowCtl1 | setRegA | setRegB | setRegC =>
    exact ⟨_, rfl, claimedWrite_result fun _ => rfl⟩
  case setIrqCtl a v => exact ⟨_, rfl, claimedWrite_result fun b => storeIrqControl_result v b s.beginBus⟩
  case wrStrobe | wrUnmapped => exact ⟨_, rfl, rfl⟩
  all_goals simp [IsBusWrite, opClass] at hi

theorem exec_busRead_returns_data {i : Instr} (hi : IsBusRead i) (s : State) :
    ∃ t, exec i s = .next t ∧ ∃ v, t.result = .data v := by
  cases i
  case rdLow a => exact ⟨_, rfl, claimedRead_readLowWindow_result a s⟩
  case rdPad0 => exact ⟨_, rfl, busPadRead_result 0 s⟩
  case rdPad1 => exact ⟨_, rfl, busPadRead_result 1 s⟩
  case rdCmdData | rdUnmapped => exact ⟨_, rfl, _, rfl⟩
  all_goals simp [IsBusRead, opClass] at hi

theorem exec_resetOrSync_returns_none {i : Instr} (hi : IsResetOrSync i) (s : State) :
    ∃ t, exec i s = .next t ∧ t.result = .none := by
  cases i
  case rstSoft =>
    simp only [exec, execRstSoft]
    cases s.board <;> exact ⟨_, rfl, rfl⟩
  case rstHard =>
    simp only [exec, execRstHard]
    cases s.board <;> exact ⟨_, rfl, rfl⟩
  case syncFrameStart | syncFrameEnd | syncAddrEdge | syncStrobeEdge => exact ⟨_, rfl, rfl⟩
  all_goals simp [IsResetOrSync, opClass] at hi

theorem exec_clk_returns_fired (s : State) : ∃ t, exec .clk s = .next t ∧ ∃ b, t.result = .fired b := by
  simp only [exec, execClk]
  cases s.board <;> exact ⟨_, rfl, _, rfl⟩

/-- No operation of these classes raises: a write, a reset and a sync return nothing, a read returns a byte and the pulse
whether it fired. -/
theorem exec_raises_nothing {i : Instr} (hi : IsBusWrite i ∨ IsBusRead i ∨ IsResetOrSync i ∨ i = .clk) (s : State) :
    ∃ t, exec i s = .next t ∧ ∀ e, t.result ≠ .error e := by
  rcases hi with hw | hr | hs | rfl
  · obtain ⟨t, ht, res⟩ := exec_busWrite_returns_none hw s
    exact ⟨t, ht, by simp [res]⟩
  · obtain ⟨t, ht, v, res⟩ := exec_busRead_returns_data hr s
    exact ⟨t, ht, by simp [res]⟩
  · obtain ⟨t, ht, res⟩ := exec_resetOrSync_returns_none hs s
    exact ⟨t, ht, by simp [res]⟩
  · obtain ⟨t, ht, b, res⟩ := exec_clk_returns_fired s
    exact ⟨t, ht, by simp [res]⟩

/-- Settles O35: the next state exists and holds no error, and for a read and for the pulse it is the one that holds their
value. -/
theorem busClockResetAndSyncAlwaysComplete : Obligations.BusClockResetAndSyncAlwaysComplete := by
  intro i s hi
  obtain ⟨t, ht, noError⟩ := exec_raises_nothing hi s
  refine ⟨t, ht, noError, fun hr => ?_, ?_⟩
  · obtain ⟨t', ht', value⟩ := exec_busRead_returns_data hr s
    cases ht.symm.trans ht'
    exact value
  · rintro rfl
    obtain ⟨t', ht', value⟩ := exec_clk_returns_fired s
    cases ht.symm.trans ht'
    exact value

end Sys2Proof.Machine


/-! PROOFS of the timer statements (spec/41_timer.md R143): what the clock pulse does with the policy's result. -/

namespace Sys2Proof.Machine

/-! ### The clock pulse -/

theorem exec_clk_of_board {s : State} {b : Board} (hb : s.board = some b) :
    exec .clk s = .next
      ((surfaceFired ((b.variant.caps s.params).policy.clock b.timer).2
        (b.setTimer ((b.variant.caps s.params).policy.clock b.timer).1) (s.start.setInCycle false)).answer
        (.fired ((b.variant.caps s.params).policy.clock b.timer).2)) := by
  simp only [exec, execClk, hb]

theorem exec_clk_of_noBoard {s : State} (hb : s.board = none) :
    exec .clk s = .next ((s.start.setInCycle false).answer (.fired false)) := by
  simp only [exec, execClk, hb]

/-- Settles O21: by `surfaceFired_eq` the request and the line take up the policy's result and never lose what they held
(R143); the pulse ends the cycle (log 14). -/
theorem clockPulseSurfacesThePolicyResult : Obligations.ClockPulseSurfacesThePolicyResult := by
  refine ⟨fun s b hb => ⟨false, ?_⟩, fun s hb => ⟨false, ?_⟩⟩
  · rw [exec_clk_of_board hb, surfaceFired_eq]
    rfl
  · rw [exec_clk_of_noBoard hb]
    rfl

end Sys2Proof.Machine


/-! PROOFS of the reference board's register statements (spec/42_reference_board.md R158 to R165): what a data-port write
does to the stored register the latch selects. -/

namespace Sys2Proof.Machine

/-! ### The write of a stored register -/

theorem storeReg_eq (i : RegIx) (v : Byte) (b : Board) (s : State) :
    storeReg i v b s = { s with
      board := some { b with regs := b.regs.set i v }
      banks := s.banks.set i v
      calls := s.calls ++ [.bankSelect i v] } := rfl

/-- A row whose meaning is `dataStore i` stores register `i`: where the address is bound as the data port, the handler's
effect is all there is. -/
theorem storesRegister_of_dataStore {mk : Addr → Byte → Instr} {i : RegIx}
    (meaning : ∀ a v s, exec (mk a v) s = .next (dataStore i a v s)) : StoresRegister mk i := by
  intro s b a v hb hw
  have stored : dataStore i a v s = storeReg i v b s.beginBus := claimedWrite_bound (storeReg i v) hb hw
  refine ⟨true, ?_⟩
  rw [meaning, stored, storeReg_eq]
  rfl

/-- Settles O9: the latch picks each row by its number, and each row's meaning is `dataStore` of that number. -/
theorem bankSelectWritesStoreAndTell : Obligations.BankSelectWritesStoreAndTell := by
  unfold Obligations.BankSelectWritesStoreAndTell
  refine ⟨?_, ?_, ?_, ?_, ?_, ?_, ?_, ?_⟩
  all_goals exact ⟨fun _ _ => rfl, storesRegister_of_dataStore fun _ _ _ => rfl⟩

end Sys2Proof.Machine


/-! PROOFS of the controller statements (spec/43_controller.md R190, R202): begin-frame, and the filter's neutral mode. -/

namespace Sys2Proof.Machine

/-! ### Begin-frame -/

/-- Settles O38: on a present port the operation is `State.setAux false` after the outputs are cleared. -/
theorem beginFrameClearsTheAuxiliaryBit : Obligations.BeginFrameClearsTheAuxiliaryBit := by
  intro s p q present
  exact withPort_present (fun _ t => t.setAux false) present

/-! ### The filter on one axis -/

/-- Whatever the mode, an axis with no direction held passes nothing and remembers nothing (R200). -/
theorem axis_of_noneHeld {raw A B : Byte} (idle : raw &&& (A ||| B) = 0) (mode : FilterMode) (prev m : Byte) :
    axis mode raw prev m A B = (0, 0) := by
  simp [axis, idle]

/-- Neutral mode with some direction held: only whether both are matters (R202). -/
theorem axis_neutral_of_someHeld {raw A B : Byte} (held : raw &&& (A ||| B) ≠ 0) (prev m : Byte) :
    axis .neutral raw prev m A B =
      if raw &&& (A ||| B) = A ||| B then (0, 0) else (raw &&& (A ||| B), 0) := by
  simp only [axis, beq_iff_eq, if_neg held]

/-- Settles O50: with nothing held both sides are `(0, 0)`; with a direction held the filter tests what the statement tests. -/
theorem neutralModeCancelsOpposites : Obligations.NeutralModeCancelsOpposites := by
  intro A B raw prev m _
  by_cases idle : raw &&& (A ||| B) = 0
  · rw [axis_of_noneHeld idle, idle, ite_self]
  · rw [axis_neutral_of_someHeld idle]
    split <;> rfl

end Sys2Proof.Machine


/-! PROOFS of the error statements (spec/60_exceptions.md R250, R252): which operations report an error, which error it is,
and what becomes of the state. -/

namespace Sys2Proof.Machine

/-! ### The construction that reports an error -/

theorem exec_new_of_unsupported {s : State} {ctx : Context} {n : Nat} (inactive : s.board = none)
    (other : ctx.variantSelector = .other n) :
    exec (.new ctx) s = .next { s with result := .error (.unsupportedVariant (.other n)), calls := [] } := by
  simp only [exec, execNew, inactive, other, supported, raise_eq]

/-! ### The operations that report an error -/

/-- `Reports i s e`: an operation that may report an error, each with what must hold of the state it is applied in. -/
inductive Reports : Instr → State → Error → Prop
  | unsupportedVariant {s ctx n} : s.board = none → ctx.variantSelector = .other n →
      Reports (.new ctx) s (.unsupportedVariant (.other n))
  | formatError {s snap tag g f} : s.inCycle = false → Reports (.load snap tag) s (.formatError g f)

/-- Of all effects only the two that raise hold an error, and they are the state before with the outputs replaced. Every
other effect returns nothing, a byte, a snapshot or whether the pulse fired. -/
theorem Effect.reports {i : Instr} {s t : State} {e : Error} (effect : Effect i s t) (he : t.result = .error e) :
    Reports i s e ∧ t = { s with result := .error e, calls := [] } := by
  cases effect with
  | newRaised inactive other => cases he; exact ⟨.unsupportedVariant inactive other, rfl⟩
  | loadRaised boundary => cases he; exact ⟨.formatError boundary, rfl⟩
  | loaded _ _ _ =>
    obtain ⟨-, -, -, -, result, -⟩ := commitAll_frame _ s.start
    cases result.symm.trans he
  | irqControl _ _ => cases (storeIrqControl_result _ _ s.beginBus).symm.trans he
  | busPad _ _ =>
    obtain ⟨v, data⟩ := padRead_result _ _ s.beginBus
    cases data.symm.trans he
  | _ => cases he

theorem exec_reports {i : Instr} {s t : State} {e : Error} (h : exec i s = .next t) (he : t.result = .error e) :
    Reports i s e ∧ t = { s with result := .error e, calls := [] } :=
  (exec_effect h).reports he

/-- Settles O27: NEW raises when `supported` knows no variant for the selector (R250), and `Reports` has this error from
that construction alone, which leaves the absent Board absent. -/
theorem unsupportedVariantIsReported : Obligations.UnsupportedVariantIsReported := by
  refine ⟨fun s ctx n => exec_new_of_unsupported, fun i s t v h he => ?_⟩
  obtain ⟨reports, rfl⟩ := exec_reports h he
  cases reports with
  | unsupportedVariant inactive other => exact ⟨⟨_, rfl, other⟩, by simp, inactive⟩

/-- Settles O36: both ways to report an error name their operation and the error's own value (R252). -/
theorem errorsChangeNoState : Obligations.ErrorsChangeNoState := by
  intro i s t e h he
  obtain ⟨reports, unchanged⟩ := exec_reports h he
  refine ⟨unchanged, ?_⟩
  cases reports with
  | unsupportedVariant _ other => exact .inl ⟨_, rfl, by rw [other]⟩
  | formatError _ => exact .inr ⟨_, _, rfl, _, _, rfl⟩

end Sys2Proof.Machine


/-! PROOFS of the reset statements (spec/70_reset_and_hazards.md R281): a hard reset of a live Board against its
destruction and reconstruction. -/

namespace Sys2Proof.Machine

/-! ### The Board of a hard reset and of a construction -/

/-- A variant's hard reset keeps the Context, the variant and the bindings and nothing else, so a Board's past is of no
account: it becomes the Board that a construction over the same bindings gives (R281). -/
theorem caps_reset_hard_eq_newBoard (c : Params) (b : Board) :
    (b.variant.caps c).reset true b = newBoard c b.ctx b.variant b.bindings := by
  unfold newBoard
  rw [Variant.caps_eq]
  rfl

/-! ### Destruction, construction and hard reset of a state -/

theorem exec_del_of_board {s : State} {b : Board} (hb : s.board = some b) :
    exec .del s = .next { s with board := none, irqLine := false, result := .none, calls := [] } := by
  simp only [exec, execDel, hb]
  rfl

/-- A construction succeeds for every supported selector: the windows of consistent parameters are ranges that bind. -/
theorem exec_new_of_supported {s : State} {ctx : Context} {v : Variant} (inactive : s.board = none)
    (selected : supported ctx.variantSelector = some v) (apart : s.params.windowsApart = true) :
    exec (.new ctx) s = .next (activate (newBoard s.params ctx v (v.caps s.params).ranges) s.start) := by
  have bound : bindAll [] (v.caps s.params).ranges = some (v.caps s.params).ranges := by
    rw [Variant.caps_eq]
    exact (bindAll_reference s.params).trans (if_pos apart)
  simp only [exec, execNew, inactive, selected, bound]

/-- On the Board's side a hard reset is an activation: with no construction in progress there is none to end. -/
theorem boardHardReset_eq_activate (b : Board) {s : State} (built : s.construction = none) :
    boardHardReset b s = activate (newBoard s.params b.ctx b.variant b.bindings) s := by
  have ended (nb : Board) : (s.setBoard (some nb)).setConstruction none = s.setBoard (some nb) := by
    rw [State.setConstruction, ← built]
    rfl
  rw [← caps_reset_hard_eq_newBoard, activate, ended]
  rfl

theorem exec_rstHard_of_board {s : State} {b : Board} (hb : s.board = some b) (built : s.construction = none) :
    exec .rstHard s = .next
      (activate (newBoard s.params b.ctx b.variant b.bindings) (s.start.setInCycle false)).resetPorts := by
  have reset := boardHardReset_eq_activate b (s := s.start.setInCycle false) built
  simp only [exec, execRstHard, hb, reset]
  rfl

theorem execAll_cons_of_next {i : Instr} {s t : State} (h : exec i s = .next t) (rest : List Instr) :
    execAll (i :: rest) s = execAll rest t := by
  simp only [execAll, h]

theorem execAll_del_new_of_agrees {s : State} {b : Board} (hb : s.board = some b) (agrees : b.Agrees s.params s.banks)
    (apart : s.params.windowsApart = true) :
    execAll [.del, .new b.ctx] s = .next (activate (newBoard s.params b.ctx b.variant b.bindings) s.start) := by
  obtain ⟨selected, bindings, -⟩ := agrees
  rw [execAll_cons_of_next (exec_del_of_board hb), bindings]
  refine execAll_cons_of_next ?_ []
  exact exec_new_of_supported rfl selected apart

/-- Settles O32: both activate the Board newly constructed from the Context and the bindings that are there; the reset
closes the cycle before it and resets the ports after it, and neither reaches what `activate` sets. -/
theorem hardResetIsReconstruction : Obligations.HardResetIsReconstruction := by
  intro s b inv hb
  obtain ⟨apart, -⟩ := (Params.wf_iff s.params).1 inv.params_wf
  exact ⟨_, _, exec_rstHard_of_board hb inv.built, execAll_del_new_of_agrees hb (inv.agrees b hb) apart, rfl⟩

end Sys2Proof.Machine


/-! PROOFS of the encoding statements (spec/30_encoding.md R91 to R113): what the decoder accepts, said once, and the
encoder against it in both directions. -/

namespace Sys2Proof

open Machine

/-! ### What the decoder accepts -/

/-- `Accepts c it i`: the trace items that are operations, each with the instruction it is decoded to. -/
inductive Accepts (c : DecodeCtx) : TraceItem → Instr → Prop
  | read (a) : Accepts c (plainItem 0x0 0 a 0) (readRow c a)
  | write (a v) : Accepts c (plainItem 0x1 0 a v) (writeRow c a v)
  | clk : Accepts c (plainItem 0x2 0 0 0) .clk
  | rstSoft : Accepts c (plainItem 0x3 0 0 0) .rstSoft
  | rstHard : Accepts c (plainItem 0x3 1 0 0) .rstHard
  | syncFrameStart : Accepts c (plainItem 0x4 0 0 0) .syncFrameStart
  | syncFrameEnd : Accepts c (plainItem 0x4 1 0 0) .syncFrameEnd
  | syncAddrEdge : Accepts c (plainItem 0x4 2 0 0) .syncAddrEdge
  | syncStrobeEdge : Accepts c (plainItem 0x4 3 0 0) .syncStrobeEdge
  | bf {p : PortIx} (hp : p.val < c.nports) : Accepts c (plainItem 0x5 (portSub p) 0 0) (.bf p)
  | pw {p : PortIx} (hp : p.val < c.nports) (v) : Accepts c (plainItem 0x6 (portSub p) 0 v) (.pw p v)
  | padRead {p : PortIx} (hp : p.val < c.nports) : Accepts c (plainItem 0x7 (portSub p) 0 0) (padReadRow c p)
  | save : Accepts c (plainItem 0x8 0 0 0) .save
  | load (snap tag) : Accepts c ⟨mkWord 0x9 0 0 0, .snapshot snap tag⟩ (.load snap tag)
  | new (ctx) : Accepts c ⟨mkWord 0xA 0 0 0, .context ctx⟩ (.new ctx)
  | del : Accepts c (plainItem 0xB 0 0 0) .del
  | input {p : PortIx} (hp : p.val < c.nports) (mask aux) :
      Accepts c (plainItem 0xC (portSub p) (auxAddr aux) mask) (.input p mask aux)
  | mode {p : PortIx} (hp : p.val < c.nports) (m) : Accepts c (plainItem 0xD (portSub p) 0 (modeCode m)) (.mode p m)

/-- A port the context has is read back from its `sub` field. -/
theorem onPort_portSub {c : DecodeCtx} {it : TraceItem} {p : PortIx} (k : PortIx → Except DecodeReject Instr)
    (hsub : wordSub it.word = portSub p) (hp : p.val < c.nports) : onPort c it k = k p := by
  simp only [onPort, hsub, portOf_portSub p hp]

theorem auxAddr_getLsbD (aux : Bool) (i : Nat) : (auxAddr aux).getLsbD i = (aux && decide (i = 0)) := by
  cases aux <;> simp [auxAddr, BitVec.getLsbD_one]

/-- The auxiliary line is `addr[0]`, and no other bit of the field is used. -/
theorem auxAddr_extractLsb' (aux : Bool) : (auxAddr aux).extractLsb' 1 15 = 0 := by cases aux <;> rfl

theorem auxAddr_getElem_zero (aux : Bool) : (auxAddr aux)[0] = aux := by cases aux <;> rfl

theorem auxAddr_getLsbD_zero {a : Addr} (high : a.extractLsb' 1 15 = 0) : auxAddr (a.getLsbD 0) = a := by
  apply BitVec.eq_of_getLsbD_eq
  intro i hi
  rw [auxAddr_getLsbD]
  cases i with
  | zero => simp
  | succ n =>
    have unused : (a.extractLsb' 1 15).getLsbD n = false := by rw [high]; exact BitVec.getLsbD_zero
    have inside : n < 15 := by omega
    simp only [BitVec.getLsbD_extractLsb', inside, decide_true, Bool.true_and, Nat.add_comm 1 n] at unused
    simp [unused]

theorem decode_of_accepts {c : DecodeCtx} {it : TraceItem} {i : Instr} (h : Accepts c it i) : decode c it = .ok i := by
  cases h with
  | read a => exact decode_readWord c a
  | write a v => exact decode_writeWord c a v
  | bf hp | pw hp _ | padRead hp =>
    simp [decode, plainItem, wordKind_mkWord, wordSub_mkWord, wordAddr_mkWord, wordData_mkWord, onPort_portSub _ _ hp,
      bare, demand]
  | input hp mask aux =>
    simp [decode, plainItem, wordKind_mkWord, wordSub_mkWord, wordAddr_mkWord, wordData_mkWord, onPort_portSub _ _ hp,
      demand, auxAddr_extractLsb', auxAddr_getElem_zero]
  | mode hp m =>
    simp [decode, plainItem, wordKind_mkWord, wordSub_mkWord, wordAddr_mkWord, wordData_mkWord, onPort_portSub _ _ hp,
      demand, modeOf_modeCode]
  | _ =>
    simp [decode, plainItem, wordKind_mkWord, wordSub_mkWord, wordAddr_mkWord, wordData_mkWord, bareSub, bare, demand]

/-- A guard that compares a field demands that the field has that value. -/
theorem demand_beq_ok {α : Type} [BEq α] [LawfulBEq α] {x y : α} {why : DecodeReject} {k : Except DecodeReject Instr}
    {i : Instr} (h : demand (x == y) why k = .ok i) : x = y ∧ k = .ok i := by
  obtain ⟨hxy, hk⟩ := demand_ok h
  exact ⟨eq_of_beq hxy, hk⟩

/-- A guard on all three fields, of an operation that uses none of them. -/
theorem demand_fields_ok {s : BitVec 4} {a : Addr} {d : Byte} {why : DecodeReject} {k : Except DecodeReject Instr} {i : Instr}
    (h : demand (s == 0 && a == 0 && d == 0) why k = .ok i) : s = 0 ∧ a = 0 ∧ d = 0 ∧ k = .ok i := by
  obtain ⟨fields, hk⟩ := demand_ok h
  simp only [Bool.and_eq_true, beq_iff_eq] at fields
  obtain ⟨⟨hs, ha⟩, hd⟩ := fields
  exact ⟨hs, ha, hd, hk⟩

/-- An item is accepted as the one its fields and its operand write. -/
theorem Accepts.of_fields {c : DecodeCtx} {it : TraceItem} {i : Instr} {k s : BitVec 4} {a : Addr} {d : Byte}
    {o : Operand} (h : Accepts c ⟨mkWord k s a d, o⟩ i) (hk : (wordKind it.word).toNat = k.toNat)
    (hs : (wordSub it.word).toNat = s.toNat) (ha : wordAddr it.word = a) (hd : wordData it.word = d)
    (ho : it.operand = o) : Accepts c it i := by
  obtain ⟨w, o'⟩ := it
  subst ha hd ho
  rw [← BitVec.eq_of_toNat_eq hk, ← BitVec.eq_of_toNat_eq hs, mkWord_fields] at h
  exact h

theorem Accepts.of_bare {c : DecodeCtx} {it : TraceItem} {i j : Instr} {k s : BitVec 4}
    (h : Accepts c (plainItem k s 0 0) j) (hb : bare it (.ok j) = .ok i) (hk : (wordKind it.word).toNat = k.toNat) (hs : (wordSub it.word).toNat = s.toNat) :
    Accepts c it i := by
  obtain ⟨ha, hd, ho, hi⟩ := bare_ok hb
  cases hi
  exact h.of_fields hk hs ha hd ho

theorem Accepts.of_bareSub {c : DecodeCtx} {it : TraceItem} {i j : Instr} {k : BitVec 4}
    (h : Accepts c (plainItem k 0 0 0) j) (hb : bareSub it (.ok j) = .ok i)
    (hk : (wordKind it.word).toNat = k.toNat) : Accepts c it i := by
  obtain ⟨hs, hb⟩ := demand_beq_ok hb
  exact h.of_bare hb hk (by rw [hs])

/-- The inversion of the decoder: kind by kind, its guards say what the other fields and the operand are. -/
theorem accepts_of_decode {c : DecodeCtx} {it : TraceItem} {i : Instr} (h : decode c it = .ok i) : Accepts c it i := by
  unfold decode at h
  split at h
  next hk =>
    obtain ⟨hs, h⟩ := demand_beq_ok h
    obtain ⟨hd, h⟩ := demand_beq_ok h
    obtain ⟨ho, h⟩ := demand_beq_ok h
    cases h
    exact (Accepts.read _).of_fields hk (by rw [hs]) rfl hd ho
  next hk =>
    obtain ⟨hs, h⟩ := demand_beq_ok h
    obtain ⟨ho, h⟩ := demand_beq_ok h
    cases h
    exact (Accepts.write _ _).of_fields hk (by rw [hs]) rfl rfl ho
  next hk => exact Accepts.clk.of_bareSub h hk
  next hk =>
    split at h
    next hs => exact Accepts.rstSoft.of_bare h hk hs
    next hs => exact Accepts.rstHard.of_bare h hk hs
    next => cases h
  next hk =>
    split at h
    next hs => exact Accepts.syncFrameStart.of_bare h hk hs
    next hs => exact Accepts.syncFrameEnd.of_bare h hk hs
    next hs => exact Accepts.syncAddrEdge.of_bare h hk hs
    next hs => exact Accepts.syncStrobeEdge.of_bare h hk hs
    next => cases h
  next hk =>
    obtain ⟨p, hp, hs, h⟩ := onPort_ok h
    exact (Accepts.bf hp).of_bare h hk (by rw [hs])
  next hk =>
    obtain ⟨p, hp, hs, h⟩ := onPort_ok h
    obtain ⟨ha, h⟩ := demand_beq_ok h
    obtain ⟨ho, h⟩ := demand_beq_ok h
    cases h
    exact (Accepts.pw hp _).of_fields hk (by rw [hs]) ha rfl ho
  next hk =>
    obtain ⟨p, hp, hs, h⟩ := onPort_ok h
    exact (Accepts.padRead hp).of_bare h hk (by rw [hs])
  next hk => exact Accepts.save.of_bareSub h hk
  next hk =>
    obtain ⟨hs, ha, hd, h⟩ := demand_fields_ok h
    split at h
    next ho =>
      cases h
      exact (Accepts.load _ _).of_fields hk (by rw [hs]) ha hd ho
    next => cases h
    next => cases h
  next hk =>
    obtain ⟨hs, ha, hd, h⟩ := demand_fields_ok h
    split at h
    next ho =>
      cases h
      exact (Accepts.new _).of_fields hk (by rw [hs]) ha hd ho
    next => cases h
    next => cases h
  next hk => exact Accepts.del.of_bareSub h hk
  next hk =>
    obtain ⟨p, hp, hs, h⟩ := onPort_ok h
    obtain ⟨ha, h⟩ := demand_beq_ok h
    obtain ⟨ho, h⟩ := demand_beq_ok h
    cases h
    exact (Accepts.input hp _ _).of_fields hk (by rw [hs]) (auxAddr_getLsbD_zero ha).symm rfl ho
  next hk =>
    obtain ⟨p, hp, hs, h⟩ := onPort_ok h
    obtain ⟨ha, h⟩ := demand_beq_ok h
    obtain ⟨ho, h⟩ := demand_beq_ok h
    split at h
    next m hm =>
      cases h
      exact (Accepts.mode hp m).of_fields hk (by rw [hs]) ha (modeOf_some hm).symm ho
    next => cases h
  next => cases h

/-! ### The rows of a bus word -/

theorem encode_dataRow (c : Params) (n : BitVec 4) (a : Addr) (v : Byte) :
    encode c (dataRow n a v) = some (plainItem 0x1 0 a v) := by
  unfold dataRow
  split <;> rfl

theorem dataRow_wf (c : Params) (nports : Nat) (n : BitVec 4) (a : Addr) (v : Byte) :
    (dataRow n a v).wf c nports = inDataWindow c a := by
  unfold dataRow
  split <;> rfl

theorem dataRow_selectedBy (c : DecodeCtx) (n : BitVec 4) (a : Addr) (v : Byte) :
    (dataRow n a v).selectedBy c = (c.latch == n && c.writesAs .dataPort a) := by
  obtain ⟨⟨n, hn⟩⟩ := n
  interval_cases n <;> rfl

/-- The window that belongs to a write handler of the reference board (20_memory.md R75). -/
def handlerWindow (c : Params) : WriteHandler → Addr → Bool
  | .lowRam => inLowWindow c
  | .commandPort => inCmdWindow c
  | .dataPort => inDataWindow c

theorem encode_handlerRow (c : Params) (n : BitVec 4) (a : Addr) (v : Byte) (h : WriteHandler) :
    encode c (handlerRow n a v h) = some (plainItem 0x1 0 a v) := by
  cases h with
  | dataPort => exact encode_dataRow c n a v
  | _ => rfl

theorem handlerRow_wf (c : Params) (nports : Nat) (n : BitVec 4) (a : Addr) (v : Byte) (h : WriteHandler) :
    (handlerRow n a v h).wf c nports = handlerWindow c h a := by
  cases h with
  | dataPort => exact dataRow_wf c nports n a v
  | _ => rfl

theorem handlerRow_selectedBy (c : DecodeCtx) (a : Addr) (v : Byte) (h : WriteHandler) :
    (handlerRow c.latch a v h).selectedBy c = c.writesAs h a := by
  cases h with
  | dataPort => rw [handlerRow, dataRow_selectedBy, beq_self_eq_true, Bool.true_and]
  | _ => rfl

/-- No two windows share an address, so the window alone picks its handler's row. -/
theorem windowWriteRow_of_handlerWindow {c : Params} (apart : c.windowsApart = true) {a : Addr} {h : WriteHandler}
    (inside : handlerWindow c h a = true) (n : BitVec 4) (v : Byte) :
    windowWriteRow c n a v = handlerRow n a v h := by
  cases h with
  | lowRam => exact if_pos inside
  | commandPort =>
    have notLow := cmdWindow_not_low apart a inside
    exact (if_neg (by simp [notLow])).trans (if_pos inside)
  | dataPort =>
    obtain ⟨notLow, notCmd⟩ := dataWindow_not_others apart a inside
    exact (if_neg (by simp [notLow])).trans ((if_neg (by simp [notCmd])).trans (if_pos inside))

/-- A write that reaches a handler's row inside the handler's window is decoded to it, bound or not. -/
theorem writeRow_of_writesAs {c : DecodeCtx} (apart : c.params.windowsApart = true) {a : Addr} {h : WriteHandler}
    (inside : handlerWindow c.params h a = true) (selected : c.writesAs h a = true) (v : Byte) :
    writeRow c a v = handlerRow c.latch a v h := by
  unfold DecodeCtx.writesAs at selected
  split at selected
  next g bound =>
    cases eq_of_beq selected
    exact writeRow_bound v bound
  next free =>
    rw [writeRow_free v free, if_neg (by simpa using selected)]
    exact windowWriteRow_of_handlerWindow apart inside c.latch v

theorem accepts_handlerRow {c : DecodeCtx} (apart : c.params.windowsApart = true) {a : Addr} {h : WriteHandler} (v : Byte)
    (inside : handlerWindow c.params h a = true) (selected : c.writesAs h a = true) :
    Accepts c (plainItem 0x1 0 a v) (handlerRow c.latch a v h) :=
  writeRow_of_writesAs apart inside selected v ▸ .write a v

theorem accepts_dataRow {c : DecodeCtx} (n : BitVec 4) (apart : c.params.windowsApart = true) {a : Addr} (v : Byte)
    (inside : inDataWindow c.params a = true) (selected : (c.latch == n && c.writesAs .dataPort a) = true) :
    Accepts c (plainItem 0x1 0 a v) (dataRow n a v) := by
  obtain ⟨latched, reached⟩ := Bool.and_eq_true_iff.1 selected
  exact eq_of_beq latched ▸ accepts_handlerRow apart (h := .dataPort) v inside reached

/-- A read that reaches the low window's row there is decoded to it, bound or not. -/
theorem readRow_of_readsAs {c : DecodeCtx} {a : Addr} (inside : inLowWindow c.params a = true)
    (selected : c.readsAs .lowPage a = true) : readRow c a = .rdLow a := by
  unfold DecodeCtx.readsAs at selected
  split at selected
  next g bound => exact readRow_bound bound
  next free =>
    rw [readRow_unclaimed free (by simpa using selected)]
    exact if_pos inside

theorem readFree_iff {c : DecodeCtx} {a : Addr} : c.readFree a = true ↔ findRead c.bindings a = none :=
  Option.isNone_iff_eq_none

theorem writeFree_iff {c : DecodeCtx} {a : Addr} : c.writeFree a = true ↔ findWrite c.bindings a = none :=
  Option.isNone_iff_eq_none

/-- A write outside the windows and the strobe port that no binding claims. -/
theorem writeRow_of_writeUnmapped {c : DecodeCtx} {a : Addr} (outside : writeUnmapped c.params a = true)
    (free : c.writeFree a = true) (v : Byte) : writeRow c a v = .wrUnmapped a v := by
  simp only [writeUnmapped, inWindow, Bool.not_eq_true', Bool.or_eq_false_iff, beq_eq_false_iff_ne] at outside
  obtain ⟨⟨⟨notLow, notCmd⟩, notData⟩, notStrobe⟩ := outside
  rw [writeRow_free v (writeFree_iff.1 free), if_neg notStrobe]
  simp [windowWriteRow, notLow, notCmd, notData]

/-- A read outside the windows and the present ports that no binding claims. -/
theorem readRow_of_readUnmapped {c : DecodeCtx} {a : Addr} (outside : readUnmapped c.params c.nports a = true)
    (free : c.readFree a = true) : readRow c a = .rdUnmapped a := by
  simp only [readUnmapped, inWindow, Bool.not_eq_true', Bool.or_eq_false_iff] at outside
  obtain ⟨⟨⟨notLow, notCmd⟩, notData⟩, notPad⟩ := outside
  rw [readRow_unclaimed (readFree_iff.1 free) notPad]
  simp [windowReadRow, notLow, notCmd, notData]

/-- A read in one of the write-only windows that nothing claims. -/
theorem readRow_of_cmdData {c : DecodeCtx} (apart : c.params.windowsApart = true) {a : Addr}
    (inside : (inCmdWindow c.params a || inDataWindow c.params a) = true)
    (selected : (c.readFree a && !presentPad c.params c.nports a) = true) : readRow c a = .rdCmdData a := by
  obtain ⟨free, notPad⟩ := Bool.and_eq_true_iff.1 selected
  have notLow : inLowWindow c.params a = false := by
    rcases Bool.or_eq_true_iff.1 inside with cmd | data
    · exact cmdWindow_not_low apart a cmd
    · exact (dataWindow_not_others apart a data).1
  rw [readRow_unclaimed (readFree_iff.1 free) (by simpa using notPad)]
  exact (if_neg (by simp [notLow])).trans (if_pos inside)

/-- The operation that a context selects is the one its trace item is accepted as. -/
theorem accepts_of_encode {c : DecodeCtx} {i : Instr} {it : TraceItem} (hc : c.params.wf = true)
    (wf : i.wf c.params c.nports = true) (selected : i.selectedBy c = true) (enc : encode c.params i = some it) :
    Accepts c it i := by
  obtain ⟨apart, -, pads, -⟩ := (Params.wf_iff c.params).1 hc
  cases i
  case range => cases enc
  all_goals cases enc
  case wrCmd a v => exact accepts_handlerRow apart (h := .commandPort) v wf selected
  case wrLow a v => exact accepts_handlerRow apart (h := .lowRam) v wf selected
  case setBank0 a v => exact accepts_dataRow 0x0 apart v wf selected
  case setBank1 a v => exact accepts_dataRow 0x1 apart v wf selected
  case setBank2 a v => exact accepts_dataRow 0x2 apart v wf selected
  case setBank3 a v => exact accepts_dataRow 0x3 apart v wf selected
  case setBank4 a v => exact accepts_dataRow 0x4 apart v wf selected
  case setBank5 a v => exact accepts_dataRow 0x5 apart v wf selected
  case setBank6 a v => exact accepts_dataRow 0x6 apart v wf selected
  case setBank7 a v => exact accepts_dataRow 0x7 apart v wf selected
  case setLowCtl0 a v => exact accepts_dataRow 0x8 apart v wf selected
  case setLowCtl1 a v => exact accepts_dataRow 0x9 apart v wf selected
  case setRegA a v => exact accepts_dataRow 0xA apart v wf selected
  case setRegB a v => exact accepts_dataRow 0xB apart v wf selected
  case setRegC a v => exact accepts_dataRow 0xC apart v wf selected
  case setIrqCtl a v => exact accepts_dataRow 0xD apart v wf selected
  case setCntLo a v => exact accepts_dataRow 0xE apart v wf selected
  case setCntHi a v => exact accepts_dataRow 0xF apart v wf selected
  case rdLow a => exact readRow_of_readsAs wf selected ▸ .read a
  case wrStrobe v =>
    have row := writeRow_free v (writeFree_iff.1 selected)
    rw [if_pos rfl] at row
    exact row ▸ .write _ v
  case wrUnmapped a v => exact writeRow_of_writeUnmapped wf selected v ▸ .write a v
  case rdPad0 =>
    have row := readRow_free (readFree_iff.1 selected)
    rw [if_pos ⟨rfl, of_decide_eq_true wf⟩] at row
    exact row ▸ .read _
  case rdPad1 =>
    have row := readRow_free (readFree_iff.1 selected)
    rw [if_neg fun h => pads h.1.symm, if_pos ⟨rfl, of_decide_eq_true wf⟩] at row
    exact row ▸ .read _
  case rdCmdData a => exact readRow_of_cmdData apart wf selected ▸ .read a
  case rdUnmapped a => exact readRow_of_readUnmapped wf selected ▸ .read a
  case bf p => exact .bf (of_decide_eq_true wf)
  case pw p v => exact .pw (of_decide_eq_true wf) v
  case prLow p =>
    have row : padReadRow c p = .prLow p := if_neg (by simpa [Instr.selectedBy] using selected)
    exact row ▸ .padRead (of_decide_eq_true wf)
  case prHigh p =>
    have row : padReadRow c p = .prHigh p := if_pos (by simpa [Instr.selectedBy] using selected)
    exact row ▸ .padRead (of_decide_eq_true wf)
  case input p mask aux => exact .input (of_decide_eq_true wf) mask aux
  case mode p m => exact .mode (of_decide_eq_true wf) m
  case clk => exact .clk
  case rstSoft => exact .rstSoft
  case rstHard => exact .rstHard
  case syncFrameStart => exact .syncFrameStart
  case syncFrameEnd => exact .syncFrameEnd
  case syncAddrEdge => exact .syncAddrEdge
  case syncStrobeEdge => exact .syncStrobeEdge
  case save => exact .save
  case load snap tag => exact .load snap tag
  case new ctx => exact .new ctx
  case del => exact .del

/-- Settles O2: the decoder gives back what `Accepts` has for the item, and `Accepts` has the encoded operation for it. -/
theorem decodingAnEncodedInstructionGivesItBack : Obligations.DecodingAnEncodedInstructionGivesItBack :=
  fun _ _ _ hc wf selected enc => decode_of_accepts (accepts_of_encode hc wf selected enc)

end Sys2Proof


/-! PROOFS of the encoding statements (spec/30_encoding.md R91 to R113), continued: what a decoded instruction is, and the
words that are no operations. -/

namespace Sys2Proof

open Machine

/-! ### What the row of a bus word is -/

/-- The rows of a read word, each with what picks it. -/
inductive ReadChoice (c : DecodeCtx) (a : Addr) : Instr → Prop
  | bound : findRead c.bindings a = some .lowPage → ReadChoice c a (.rdLow a)
  | pad0 : findRead c.bindings a = none → a = c.params.padData0Addr → 0 < c.nports → ReadChoice c a .rdPad0
  | pad1 : findRead c.bindings a = none → a = c.params.padData1Addr → 1 < c.nports → ReadChoice c a .rdPad1
  | low : findRead c.bindings a = none → presentPad c.params c.nports a = false → inLowWindow c.params a = true →
      ReadChoice c a (.rdLow a)
  | cmdData : findRead c.bindings a = none → presentPad c.params c.nports a = false →
      (inCmdWindow c.params a || inDataWindow c.params a) = true → ReadChoice c a (.rdCmdData a)
  | unmapped : findRead c.bindings a = none → readUnmapped c.params c.nports a = true → ReadChoice c a (.rdUnmapped a)

theorem readRow_choice (c : DecodeCtx) (a : Addr) : ReadChoice c a (readRow c a) := by
  cases bound : findRead c.bindings a with
  | some h => cases h; rw [readRow_bound bound]; exact .bound bound
  | none =>
    rw [readRow_free bound]
    split
    next h0 => exact .pad0 bound h0.1 h0.2
    split
    next h1 => exact .pad1 bound h1.1 h1.2
    next h0 h1 =>
      have noPad := presentPad_eq_false.2 ⟨h0, h1⟩
      unfold windowReadRow
      split
      next low => exact .low bound noPad low
      split
      next cmdData => exact .cmdData bound noPad cmdData
      next notLow notCmdData =>
        refine .unmapped bound ?_
        simp only [Bool.not_eq_true, Bool.or_eq_false_iff] at notLow notCmdData
        simp [readUnmapped, inWindow, noPad, notLow, notCmdData]

/-- The rows of a write word, each with what picks it. -/
inductive WriteChoice (c : DecodeCtx) (a : Addr) (v : Byte) : Instr → Prop
  | bound (h) : findWrite c.bindings a = some h → WriteChoice c a v (handlerRow c.latch a v h)
  | strobe : findWrite c.bindings a = none → a = c.params.padStrobeAddr → WriteChoice c a v (.wrStrobe v)
  | window (h) : findWrite c.bindings a = none → a ≠ c.params.padStrobeAddr → handlerWindow c.params h a = true →
      WriteChoice c a v (handlerRow c.latch a v h)
  | unmapped : findWrite c.bindings a = none → writeUnmapped c.params a = true → WriteChoice c a v (.wrUnmapped a v)

theorem writeRow_choice (c : DecodeCtx) (a : Addr) (v : Byte) : WriteChoice c a v (writeRow c a v) := by
  cases bound : findWrite c.bindings a with
  | some h => rw [writeRow_bound v bound]; exact .bound h bound
  | none =>
    rw [writeRow_free v bound]
    split
    next strobe => exact .strobe bound strobe
    next notStrobe =>
      unfold windowWriteRow
      split
      next low => exact .window .lowRam bound notStrobe low
      split
      next cmd => exact .window .commandPort bound notStrobe cmd
      split
      next data => exact .window .dataPort bound notStrobe data
      next notLow notCmd notData => exact .unmapped bound (by simp [writeUnmapped, inWindow, *])

/-! ### A decoded instruction -/

theorem ReadChoice.encode {c : DecodeCtx} {a : Addr} {i : Instr} (h : ReadChoice c a i) :
    encode c.params i = some (plainItem 0x0 0 a 0) := by
  cases h with
  | pad0 _ ha _ | pad1 _ ha _ => rw [ha]; rfl
  | _ => rfl

theorem WriteChoice.encode {c : DecodeCtx} {a : Addr} {v : Byte} {i : Instr} (h : WriteChoice c a v i) :
    encode c.params i = some (plainItem 0x1 0 a v) := by
  cases h with
  | bound h _ | window h _ _ _ => exact encode_handlerRow c.params c.latch a v h
  | strobe _ ha => rw [ha]; rfl
  | unmapped _ _ => rfl

theorem encode_of_accepts {c : DecodeCtx} {it : TraceItem} {i : Instr} (h : Accepts c it i) :
    encode c.params i = some it := by
  cases h with
  | read a => exact (readRow_choice c a).encode
  | write a v => exact (writeRow_choice c a v).encode
  | padRead hp => unfold padReadRow; split <;> rfl
  | _ => rfl

theorem ReadChoice.selectedBy {c : DecodeCtx} {a : Addr} {i : Instr} (h : ReadChoice c a i) : i.selectedBy c = true := by
  cases h with
  | bound bound => simp [Instr.selectedBy, DecodeCtx.readsAs, bound]
  | low free noPad _ => simp [Instr.selectedBy, DecodeCtx.readsAs, free, noPad]
  | pad0 free ha _ | pad1 free ha _ => exact readFree_iff.2 (ha ▸ free)
  | cmdData free noPad _ => simp [Instr.selectedBy, readFree_iff.2 free, noPad]
  | unmapped free _ => exact readFree_iff.2 free

theorem WriteChoice.selectedBy {c : DecodeCtx} {a : Addr} {v : Byte} {i : Instr} (h : WriteChoice c a v i) :
    i.selectedBy c = true := by
  cases h with
  | bound h bound => rw [handlerRow_selectedBy]; simp [DecodeCtx.writesAs, bound]
  | window h free notStrobe _ => rw [handlerRow_selectedBy]; simp [DecodeCtx.writesAs, free, notStrobe]
  | strobe free ha => exact writeFree_iff.2 (ha ▸ free)
  | unmapped free _ => exact writeFree_iff.2 free

theorem padReadRow_selectedBy (c : DecodeCtx) (p : PortIx) : (padReadRow c p).selectedBy c = true := by
  unfold padReadRow
  split
  next high => simp [Instr.selectedBy, high]
  next low => simp [Instr.selectedBy, low]

theorem selectedBy_of_accepts {c : DecodeCtx} {it : TraceItem} {i : Instr} (h : Accepts c it i) :
    i.selectedBy c = true := by
  cases h with
  | read a => exact (readRow_choice c a).selectedBy
  | write a v => exact (writeRow_choice c a v).selectedBy
  | padRead hp => exact padReadRow_selectedBy c _
  | _ => rfl

/-! ### Well-formedness of a decoded instruction -/

/-- The bindings of no Board, or of the reference board. -/
def DecodeCtx.PlainBindings (c : DecodeCtx) : Prop := c.bindings = [] ∨ c.bindings = referenceRanges c.params

/-- Under these bindings a bound read lies in the low window. -/
theorem inLowWindow_of_findRead {c : DecodeCtx} (plain : c.PlainBindings) {a : Addr} {h : ReadHandler}
    (bound : findRead c.bindings a = some h) : inLowWindow c.params a = true := by
  rcases plain with none | reference
  · rw [none] at bound
    cases bound
  · rw [reference, findRead_reference] at bound
    split at bound
    next low => exact low
    next => cases bound

/-- Under these bindings a bound write lies in its handler's window. -/
theorem handlerWindow_of_findWrite {c : DecodeCtx} (plain : c.PlainBindings) {a : Addr} {h : WriteHandler}
    (bound : findWrite c.bindings a = some h) : handlerWindow c.params h a = true := by
  rcases plain with none | reference
  · rw [none] at bound
    cases bound
  · rw [reference, findWrite_reference] at bound
    split at bound
    next low => cases bound; exact low
    split at bound
    next cmd => cases bound; exact cmd
    split at bound
    next data => cases bound; exact data
    next => cases bound

theorem isWindowWrite_handlerRow (n : BitVec 4) (a : Addr) (v : Byte) (h : WriteHandler) :
    IsWindowWrite (handlerRow n a v h) := by
  cases h with
  | dataPort => rcases opClass_dataRow n a v with e | e <;> simp [IsWindowWrite, handlerRow, e]
  | _ => simp [IsWindowWrite, handlerRow, opClass]

theorem ReadChoice.wf {c : DecodeCtx} {a : Addr} {i : Instr} (h : ReadChoice c a i)
    (plain : (∃ a, i = .rdLow a) → c.PlainBindings) : i.wf c.params c.nports = true := by
  cases h with
  | bound bound => exact inLowWindow_of_findRead (plain ⟨a, rfl⟩) bound
  | pad0 _ _ present | pad1 _ _ present => exact decide_eq_true present
  | low _ _ inside | cmdData _ _ inside => exact inside
  | unmapped _ outside => exact outside

theorem WriteChoice.wf {c : DecodeCtx} {a : Addr} {v : Byte} {i : Instr} (h : WriteChoice c a v i)
    (plain : IsWindowWrite i → c.PlainBindings) : i.wf c.params c.nports = true := by
  cases h with
  | bound h bound =>
    rw [handlerRow_wf]
    exact handlerWindow_of_findWrite (plain (isWindowWrite_handlerRow c.latch a v h)) bound
  | window h _ _ inside => rw [handlerRow_wf, inside]
  | strobe _ _ => rfl
  | unmapped _ outside => exact outside

theorem padReadRow_wf (c : DecodeCtx) (n : Nat) {p : PortIx} (hp : p.val < n) : (padReadRow c p).wf c.params n = true := by
  unfold padReadRow
  split <;> exact decide_eq_true hp

theorem wf_of_accepts {c : DecodeCtx} {it : TraceItem} {i : Instr} (h : Accepts c it i) (notNew : ∀ ctx, i ≠ .new ctx)
    (plain : IsWindowWrite i ∨ (∃ a, i = .rdLow a) → c.PlainBindings) : i.wf c.params c.nports = true := by
  cases h with
  | read a => exact (readRow_choice c a).wf fun low => plain (.inr low)
  | write a v => exact (writeRow_choice c a v).wf fun write => plain (.inl write)
  | padRead hp => exact padReadRow_wf c c.nports hp
  | new ctx => exact absurd rfl (notNew ctx)
  | bf hp | pw hp _ | input hp _ _ | mode hp _ => exact decide_eq_true hp
  | _ => rfl

/-- Settles O3: an accepted item has the form `Accepts` gives it, and the row of a bus word was chosen by its bindings, by
its ports or by its window, which is what its selection and its well-formedness ask. -/
theorem decodedInstructionEncodesToItsItem : Obligations.DecodedInstructionEncodesToItsItem := by
  intro c it i h
  have accepted := accepts_of_decode h
  exact ⟨encode_of_accepts accepted, selectedBy_of_accepts accepted, wf_of_accepts accepted⟩

/-! ### The words that are no operations -/

theorem portSub_toNat (p : PortIx) : (portSub p).toNat = p.val := by
  have := p.isLt
  simp [portSub]
  omega

theorem modeCode_toNat_le (m : FilterMode) : (modeCode m).toNat ≤ 5 := by cases m <;> decide

theorem auxAddr_toNat_le (aux : Bool) : (auxAddr aux).toNat ≤ 1 := by cases aux <;> decide

theorem step_of_decode_error {s : State} {it : TraceItem} {rest : List TraceItem} {why : DecodeReject}
    (ht : s.trace = it :: rest) (hd : decode s.decodeCtx it = .error why) : step s = .refused (.notAnOperation why) := by
  simp only [step, fetch, ht, hd]

/-- Settles O4: no item that `Accepts` has is on the list, for its fields are the ones its row writes and its port is
present. -/
theorem wordsThatAreNoOperationsAreRefused : Obligations.WordsThatAreNoOperationsAreRefused := by
  intro s it rest ht listed
  cases hd : decode s.decodeCtx it with
  | error why => exact ⟨why, step_of_decode_error ht hd⟩
  | ok i =>
    exfalso
    have accepted := accepts_of_decode hd
    cases accepted with
    | bf hp | pw hp _ | padRead hp =>
      simp only [State.decodeCtx_nports] at hp
      simp [plainItem, wordKind_mkWord, wordSub_mkWord, wordAddr_mkWord, wordData_mkWord, portSub_toNat] at listed
      omega
    | input hp mask aux =>
      have := auxAddr_toNat_le aux
      simp only [State.decodeCtx_nports] at hp
      simp [plainItem, wordKind_mkWord, wordSub_mkWord, wordAddr_mkWord, wordData_mkWord, portSub_toNat] at listed
      omega
    | mode hp m =>
      have := modeCode_toNat_le m
      simp only [State.decodeCtx_nports] at hp
      simp [plainItem, wordKind_mkWord, wordSub_mkWord, wordAddr_mkWord, wordData_mkWord, portSub_toNat] at listed
      omega
    | _ => simp [plainItem, wordKind_mkWord, wordSub_mkWord, wordAddr_mkWord, wordData_mkWord] at listed

/-! ### Words written out -/

/-- Settles O1: thirteen closed words, decoded by evaluation in the table's context. -/
theorem tableWordsDecodeToTheirRows : Obligations.TableWordsDecodeToTheirRows := by
  unfold Obligations.TableWordsDecodeToTheirRows
  decide

end Sys2Proof


/-! PROOFS of the statements about the step (spec/20_memory.md R78, R80; spec/40_dispatch.md R124, R125): a step is its
decoded operation, takes exactly it off the trace, and on a bus word is the framework's dispatch. -/

namespace Sys2Proof.Machine

/-! ### A step is its decoded operation -/

theorem step_of_decode_ok {s : State} {it : TraceItem} {rest : List TraceItem} {i : Instr} (ht : s.trace = it :: rest)
    (hd : decode s.decodeCtx it = .ok i) : step s = exec i { s with trace := rest } := by
  simp only [step, fetch, ht, hd, State.setTrace]

theorem step_of_empty_trace {s : State} (ht : s.trace = []) : step s = .next s := by
  simp only [step, fetch, ht]

/-- A step that answers takes one item off the trace and is `exec` of what the item is decoded to. -/
theorem step_cons_next {s t : State} {it : TraceItem} {rest : List TraceItem} (ht : s.trace = it :: rest)
    (h : step s = .next t) : ∃ i, decode s.decodeCtx it = .ok i ∧ exec i { s with trace := rest } = .next t := by
  cases hd : decode s.decodeCtx it with
  | ok i => exact ⟨i, rfl, step_of_decode_ok ht hd ▸ h⟩
  | error why => cases (step_of_decode_error ht hd).symm.trans h

/-- Settles O5: by the three equations of `step`, the item of a selected operation being decoded to it (O2). -/
theorem stepRunsTheDecodedInstruction : Obligations.StepRunsTheDecodedInstruction := by
  refine ⟨fun s it rest i ht hd => step_of_decode_ok ht hd, fun s it rest i ht hc enc wf selected => ?_,
    fun s => step_of_empty_trace⟩
  rw [← State.decodeCtx_nports] at wf
  exact step_of_decode_ok ht (decodingAnEncodedInstructionGivesItBack s.decodeCtx i it hc wf selected enc)

/-! ### What no operation changes -/

/-- No operation changes the parameters or the rest of the trace. -/
theorem Effect.frame {i : Instr} {s t : State} (h : Effect i s t) : t.params = s.params ∧ t.trace = s.trace := by
  cases h with
  | irqControl _ _ => rw [storeIrqControl_eq]; exact ⟨rfl, rfl⟩
  | pulse _ => rw [surfaceFired_eq]; exact ⟨rfl, rfl⟩
  | busPad _ _ => unfold padRead; split <;> exact ⟨rfl, rfl⟩
  | loaded _ _ _ =>
    obtain ⟨-, -, -, -, -, trace, params, -⟩ := commitAll_frame _ s.start
    exact ⟨params, trace⟩
  | _ => exact ⟨rfl, rfl⟩

theorem exec_params {i : Instr} {s t : State} (h : exec i s = .next t) : t.params = s.params := (exec_effect h).frame.1

theorem exec_trace {i : Instr} {s t : State} (h : exec i s = .next t) : t.trace = s.trace := (exec_effect h).frame.2

/-- Settles O6: the step hands `exec` the rest of the trace, and no effect touches it. -/
theorem stepTakesOperationsInOrder : Obligations.StepTakesOperationsInOrder := by
  intro s t it rest ht h
  obtain ⟨i, -, hi⟩ := step_cons_next ht h
  exact exec_trace hi

/-! ### The framework's dispatch -/

/-- Where the data port is bound, the row the latch picks has the effect of the reference board's handler. -/
theorem exec_dataRow_bound {s : State} {b : Board} {a : Addr} (hb : s.board = some b)
    (hw : findWrite b.bindings a = some .dataPort) (v : Byte) :
    exec (dataRow b.latch a v) s = .next (storeLatched v b s.beginBus) := by
  unfold storeLatched
  generalize b.latch = n
  obtain ⟨⟨n, hn⟩⟩ := n
  interval_cases n <;> exact congrArg Host.Outcome.next (claimedWrite_bound _ hb hw)

theorem exec_handlerRow_bound {s : State} {b : Board} {a : Addr} {h : WriteHandler} (hb : s.board = some b)
    (hw : findWrite b.bindings a = some h) (v : Byte) :
    exec (handlerRow b.latch a v h) s = .next (referenceBusWrite h a v b s.beginBus) := by
  cases h with
  | lowRam => exact congrArg Host.Outcome.next (claimedWrite_bound (writeLowWindow a v) hb hw)
  | commandPort => exact congrArg Host.Outcome.next (claimedWrite_bound (storeLatch v) hb hw)
  | dataPort => exact exec_dataRow_bound hb hw v

/-- The row that the windows alone pick for a read finds no binding either (log 16). -/
theorem exec_windowReadRow_unbound {s : State} {a : Addr} (e : s.boundRead a = none) (c : Params) :
    exec (windowReadRow c a) s = .next (unmappedRead s) := by
  unfold windowReadRow
  split
  · exact congrArg Host.Outcome.next (claimedRead_unbound e .lowPage _)
  split <;> rfl

theorem busPadRead_of_length_le {s : State} {p : PortIx} (h : ¬p.val < s.ports.length) : busPadRead p s = unmappedRead s :=
  busPadRead_absent (List.getElem?_eq_none (Nat.le_of_not_lt h))

/-- Decoding a read and running its row is the dispatch of R124. -/
theorem exec_readRow (a : Addr) (s : State) : exec (readRow s.decodeCtx a) s = .next (dispatchRead a s) := by
  unfold dispatchRead
  cases bound : s.boundRead a with
  | some bh =>
    obtain ⟨b, h⟩ := bh
    obtain ⟨hb, hr⟩ := boundRead_some bound
    have claimed : findRead s.decodeCtx.bindings a = some h := by
      rw [State.decodeCtx_bindings, findRead_bindings, bound]; rfl
    rw [readRow_bound claimed]
    simp only [Variant.caps_eq]
    cases h
    exact congrArg Host.Outcome.next (claimedRead_bound (readLowWindow a) hb hr)
  | none =>
    have free : findRead s.decodeCtx.bindings a = none := by
      rw [State.decodeCtx_bindings, findRead_bindings, bound]; rfl
    rw [readRow_free free, State.decodeCtx_nports, State.decodeCtx_params]
    simp only [padDataPort]
    by_cases h0 : a = s.params.padData0Addr
    · by_cases present : 0 < s.ports.length
      · rw [if_pos ⟨h0, present⟩, if_pos h0]; rfl
      · have notPad1 : ¬(a = s.params.padData1Addr ∧ 1 < s.ports.length) := by omega
        rw [if_neg fun h => present h.2, if_neg notPad1, if_pos h0, exec_windowReadRow_unbound bound]
        exact congrArg Host.Outcome.next (busPadRead_of_length_le (p := 0) present).symm
    · rw [if_neg fun h => h0 h.1, if_neg h0]
      by_cases h1 : a = s.params.padData1Addr
      · by_cases present : 1 < s.ports.length
        · rw [if_pos ⟨h1, present⟩, if_pos h1]; rfl
        · rw [if_neg fun h => present h.2, if_pos h1, exec_windowReadRow_unbound bound]
          exact congrArg Host.Outcome.next (busPadRead_of_length_le (p := 1) present).symm
      · rw [if_neg fun h => h1 h.1, if_neg h1, exec_windowReadRow_unbound bound]

/-- Decoding a write and running its row is the dispatch of R125. -/
theorem exec_writeRow (a : Addr) (v : Byte) (s : State) :
    exec (writeRow s.decodeCtx a v) s = .next (dispatchWrite a v s) := by
  unfold dispatchWrite
  cases bound : s.boundWrite a with
  | some bh =>
    obtain ⟨b, h⟩ := bh
    obtain ⟨hb, hw⟩ := boundWrite_some bound
    have claimed : findWrite s.decodeCtx.bindings a = some h := by
      rw [State.decodeCtx_bindings, findWrite_bindings, bound]; rfl
    rw [writeRow_bound v claimed, State.decodeCtx_latch, State.latch_some hb]
    simp only [Variant.caps_eq]
    exact exec_handlerRow_bound hb hw v
  | none =>
    have free : findWrite s.decodeCtx.bindings a = none := by
      rw [State.decodeCtx_bindings, findWrite_bindings, bound]; rfl
    rw [writeRow_free v free, State.decodeCtx_params]
    split
    · rfl
    · exact exec_windowWriteRow_unbound bound s.params s.decodeCtx.latch v

/-- Settles O7: a bus word is decoded to its row (R94, R96), taking the item off changes nothing that decoding reads, and
the row does what the dispatch does. -/
theorem busWordsFollowTheFrameworkDispatch : Obligations.BusWordsFollowTheFrameworkDispatch := by
  intro s rest a v
  refine ⟨fun ht => ?_, fun ht => ?_⟩
  · rw [step_of_decode_ok ht (decode_readWord s.decodeCtx a)]
    exact exec_readRow a { s with trace := rest }
  · rw [step_of_decode_ok ht (decode_writeWord s.decodeCtx a v)]
    exact exec_writeRow a v { s with trace := rest }

end Sys2Proof.Machine


/-! PROOFS of the reference board's register statements (spec/42_reference_board.md R156 to R177; spec/20_memory.md
section 4), continued: the command port, the data port, repeated writes, and writes without a Board. -/

namespace Sys2Proof.Machine

/-! ### The command port and the stored registers -/

/-- Settles O8: where the command port is bound the write is `storeLatch` alone. -/
theorem commandWriteLoadsTheLatch : Obligations.CommandWriteLoadsTheLatch := by
  intro s b a v hb hw
  exact congrArg Host.Outcome.next (claimedWrite_bound (storeLatch v) hb hw)

/-- Settles O10: as for the bank-select rows, the latch picks the row and the row's meaning is `dataStore`. -/
theorem lowControlAndSpareWritesStoreAndTell : Obligations.LowControlAndSpareWritesStoreAndTell := by
  unfold Obligations.LowControlAndSpareWritesStoreAndTell
  refine ⟨?_, ?_, ?_, ?_, ?_⟩
  all_goals exact ⟨fun _ _ => rfl, storesRegister_of_dataStore fun _ _ _ => rfl⟩

/-! ### The timer registers -/

/-- Settles O11: where the data port is bound each row is its handler's effect alone; `storeIrqControl_eq` has both cases of
the enable bit in one record. -/
theorem timerRegisterWritesSetTheirFieldsAndRelease : Obligations.TimerRegisterWritesSetTheirFieldsAndRelease := by
  refine ⟨fun _ _ => rfl, fun _ _ => rfl, fun _ _ => rfl, fun s b a v hb hw => ⟨?_, ?_, ?_⟩⟩
  · have control := claimedWrite_bound (storeIrqControl v) hb hw
    rw [storeIrqControl_eq] at control
    exact congrArg Host.Outcome.next control
  · exact congrArg Host.Outcome.next (claimedWrite_bound (storeCountLow v) hb hw)
  · exact congrArg Host.Outcome.next (claimedWrite_bound (storeCountHigh v) hb hw)

/-! ### The latch picks the register -/

/-- What the data port does, by the latch (R157, R169, R173, R174). -/
theorem storeLatched_cases (v : Byte) (b : Board) (s : State) :
    (b.latch = 0xD ∧ storeLatched v b s = storeIrqControl v b s) ∨
    (b.latch = 0xE ∧ storeLatched v b s = storeCountLow v b s) ∨
    (b.latch = 0xF ∧ storeLatched v b s = storeCountHigh v b s) ∨
    ∃ i : RegIx, b.latch = BitVec.ofNat 4 i.val ∧ storeLatched v b s = storeReg i v b s := by
  unfold storeLatched
  split
  next h => exact .inl ⟨BitVec.eq_of_toNat_eq h, rfl⟩
  next h => exact .inr (.inl ⟨BitVec.eq_of_toNat_eq h, rfl⟩)
  next h => exact .inr (.inr (.inl ⟨BitVec.eq_of_toNat_eq h, rfl⟩))
  next hD hE hF =>
    have small : b.latch.toNat < 13 := by
      change b.latch.toNat ≠ 13 at hD
      change b.latch.toNat ≠ 14 at hE
      change b.latch.toNat ≠ 15 at hF
      have := b.latch.isLt
      omega
    rw [dif_pos small]
    exact .inr (.inr (.inr ⟨⟨b.latch.toNat, small⟩, by simp, rfl⟩))

/-- The stored registers have the numbers below those of the three timer registers. -/
theorem latch_of_regIx (i : RegIx) : BitVec.ofNat 4 i.val ≠ 0xD ∧ BitVec.ofNat 4 i.val ≠ 0xE ∧ BitVec.ofNat 4 i.val ≠ 0xF ∧
    (BitVec.ofNat 4 i.val).toNat = i.val := by
  revert i
  decide

theorem regIx_ne_of_timerLatch {n : BitVec 4} (h : 13 ≤ n.toNat) (i : RegIx) : i.val ≠ n.toNat := by
  have := i.isLt
  omega

/-- Settles O12: whichever of the four effects the latch picks, the Board it leaves differs in that register alone. -/
theorem dataWriteReachesTheLatchedRegister : Obligations.DataWriteReachesTheLatchedRegister := by
  intro s t b a v hb hw h
  rw [exec_dataRow_bound hb hw v] at h
  cases Host.Outcome.next.inj h
  rcases storeLatched_cases v b s.beginBus with ⟨hl, e⟩ | ⟨hl, e⟩ | ⟨hl, e⟩ | ⟨i, hl, e⟩
  · rw [e, storeIrqControl_eq]
    exact ⟨_, rfl, rfl, fun i => (if_neg (regIx_ne_of_timerLatch (by simp [hl]) i)).symm, by simp [hl], by simp [hl],
      by simp [hl], by simp [hl]⟩
  · rw [e]
    exact ⟨_, rfl, rfl, fun i => (if_neg (regIx_ne_of_timerLatch (by simp [hl]) i)).symm, by simp [hl], by simp [hl],
      by simp [hl, countLow_countOf], by simp [hl, countHigh_countOf]⟩
  · rw [e]
    exact ⟨_, rfl, rfl, fun i => (if_neg (regIx_ne_of_timerLatch (by simp [hl]) i)).symm, by simp [hl], by simp [hl],
      by simp [hl, countLow_countOf], by simp [hl, countHigh_countOf]⟩
  · obtain ⟨notD, notE, notF, number⟩ := latch_of_regIx i
    rw [e, hl, number, if_neg notD, if_neg notD, if_neg notE, if_neg notF]
    refine ⟨_, rfl, hl, fun j => ?_, rfl, rfl, rfl, rfl⟩
    simp [Vector.getElem_set, eq_comm]

/-! ### Repeated writes -/

/-- An effect of a claimed write that keeps the bindings and that a second write leaves as it is. -/
def Repeats (effect : Board → State → State) : Prop :=
  ∀ (b : Board) (s : State), s.board = some b → ∃ b', (effect b s.beginBus).board = some b' ∧ b'.bindings = b.bindings ∧
    effect b' (effect b s.beginBus).beginBus = effect b s.beginBus

theorem storeLatch_repeats (v : Byte) : Repeats (storeLatch v) := fun _ _ _ => ⟨_, rfl, rfl, rfl⟩

theorem storeReg_repeats (i : RegIx) (v : Byte) : Repeats (storeReg i v) := by
  intro b s _
  refine ⟨_, rfl, rfl, ?_⟩
  have again (r : Vector Byte 13) : (r.set i v).set i v = r.set i v := Vector.set_set ..
  simp only [storeReg_eq, Board.setReg_regs, State.beginBus_banks, again]
  rfl

theorem storeIrqControl_repeats (v : Byte) : Repeats (storeIrqControl v) := by
  intro b s _
  simp only [storeIrqControl_eq]
  refine ⟨_, rfl, rfl, ?_⟩
  simp only [State.beginBus_irqLine, State.beginBus_params, Bool.and_assoc, Bool.and_self]
  rfl

theorem Timer.loadLow_loadLow (v : Byte) (t : Timer) : (t.loadLow v).loadLow v = t.loadLow v := by
  simp only [Timer.loadLow, countHigh_countOf]

theorem Timer.loadHigh_loadHigh (v : Byte) (t : Timer) : (t.loadHigh v).loadHigh v = t.loadHigh v := by
  simp only [Timer.loadHigh, countLow_countOf]

theorem storeCountLow_repeats (v : Byte) : Repeats (storeCountLow v) := fun b s _ =>
  ⟨_, rfl, rfl, congrArg (fun t => driveIrq false (b.setTimer t) s.beginBus) (b.timer.loadLow_loadLow v)⟩

theorem storeCountHigh_repeats (v : Byte) : Repeats (storeCountHigh v) := fun b s _ =>
  ⟨_, rfl, rfl, congrArg (fun t => driveIrq false (b.setTimer t) s.beginBus) (b.timer.loadHigh_loadHigh v)⟩

theorem Memory.write_write (m : Memory) (k : Nat) (v : Byte) : (m.write k v).write k v = m.write k v := by
  induction m with
  | nil => simp [Memory.write]
  | cons c rest ih =>
    obtain ⟨i, b⟩ := c
    by_cases before : k < i
    · simp [Memory.write, before]
    by_cases here : k = i
    · simp [Memory.write, here]
    · simp [Memory.write, before, here, ih]

theorem collLowWrite_repeat (c : Params) (b : Board) (a : Addr) (v : Byte) (m : Memory) :
    collLowWrite c b a v (collLowWrite c b a v m) = collLowWrite c b a v m := by
  unfold collLowWrite
  split
  · split
    · exact Memory.write_write m _ v
    · rfl
  · rfl
  · rfl

theorem writeLowWindow_repeats (a : Addr) (v : Byte) : Repeats (writeLowWindow a v) := by
  intro b s hb
  refine ⟨b, hb, rfl, ?_⟩
  simp only [writeLowWindow, State.beginBus_params, State.logCall_params, State.setWram_params, State.beginBus_wram,
    State.logCall_wram, State.setWram_wram, collLowWrite_repeat]
  rfl

theorem claimedWrite_repeat {effect : Board → State → State} (stable : Repeats effect) (h : WriteHandler) (a : Addr)
    (s : State) : claimedWrite h a effect (claimedWrite h a effect s) = claimedWrite h a effect s := by
  rcases claimedWrite_cases h a effect s with ⟨b, hb, hw, e⟩ | ⟨unbound, e⟩
  · obtain ⟨b', hb', same, again⟩ := stable b s hb
    rw [e, claimedWrite_bound effect hb' (same ▸ hw), again]
  · rw [e]
    rcases claimedWrite_cases h a effect (unmappedWrite s) with ⟨b, hb, hw, -⟩ | ⟨-, e'⟩
    · exact absurd hw (unbound b hb)
    · exact e'

/-- Every window write is a claimed write, and its effect is one a second write leaves as it is. -/
theorem exec_windowWrite {i : Instr} (hi : IsWindowWrite i) :
    ∃ h a effect, Repeats effect ∧ ∀ s, exec i s = .next (claimedWrite h a effect s) := by
  cases i
  case wrCmd a v => exact ⟨.commandPort, a, _, storeLatch_repeats v, fun _ => rfl⟩
  case wrLow a v => exact ⟨.lowRam, a, _, writeLowWindow_repeats a v, fun _ => rfl⟩
  case setIrqCtl a v => exact ⟨.dataPort, a, _, storeIrqControl_repeats v, fun _ => rfl⟩
  case setCntLo a v => exact ⟨.dataPort, a, _, storeCountLow_repeats v, fun _ => rfl⟩
  case setCntHi a v => exact ⟨.dataPort, a, _, storeCountHigh_repeats v, fun _ => rfl⟩
  case setBank0 a v | setBank1 a v | setBank2 a v | setBank3 a v | setBank4 a v | setBank5 a v | setBank6 a v
      | setBank7 a v | setLowCtl0 a v | setLowCtl1 a v | setRegA a v | setRegB a v | setRegC a v =>
    exact ⟨.dataPort, a, _, storeReg_repeats _ v, fun _ => rfl⟩
  all_goals simp [IsWindowWrite, opClass] at hi

/-- Settles O13: a window write is a claimed write with an effect that repeats. -/
theorem commandAndDataWritesAreIdempotent : Obligations.CommandAndDataWritesAreIdempotent := by
  intro i s t hi h
  obtain ⟨w, a, effect, stable, meaning⟩ := exec_windowWrite hi
  rw [meaning] at h
  cases Host.Outcome.next.inj h
  rw [meaning, claimedWrite_repeat stable]

/-! ### Without a Board -/

/-- Settles O14: without a Board nothing claims a window's address. -/
theorem withoutABoardEverythingIsUnmapped : Obligations.WithoutABoardEverythingIsUnmapped := by
  intro s hb
  refine ⟨fun i hi => ?_, fun a => ?_, fun a => rfl, ?_, ?_⟩
  · obtain ⟨w, a, effect, -, meaning⟩ := exec_windowWrite hi
    rw [meaning, claimedWrite_noBoard effect hb, unmappedWrite_eq]
  · exact congrArg Host.Outcome.next (claimedRead_noBoard (readLowWindow a) hb)
  · exact exec_clk_of_noBoard hb
  · simp only [State.irqReq, hb]

end Sys2Proof.Machine


/-! PROOFS of the statements about the low window and the work RAM (spec/42_reference_board.md section 4;
spec/20_memory.md section 6), and about reads that nothing claims (spec/40_dispatch.md R126). -/

namespace Sys2Proof.Machine

/-! ### What the low window shows -/

theorem lowMode_of_rom {r : Byte} (sel : r.getLsbD 6 = false) : lowMode r = .rom (r.extractLsb' 0 6) := by
  rw [lowMode_eq, sel]; rfl

theorem lowMode_of_ram {r : Byte} (sel : r.getLsbD 6 = true) (en : r.getLsbD 7 = true) : lowMode r = .ram := by
  rw [lowMode_eq, sel, en]; rfl

theorem lowMode_of_openBus {r : Byte} (sel : r.getLsbD 6 = true) (en : r.getLsbD 7 = false) : lowMode r = .openBus := by
  rw [lowMode_eq, sel, en]; rfl

theorem collLowRead_of_rom {c : Params} {b : Board} {page : BitVec 6} (mode : lowMode (b.reg 8) = .rom page)
    (m : Memory) (a : Addr) : collLowRead c b m a = romPageByte c b.ctx.programROM page (lowOffset c a) := by
  simp only [collLowRead, mode]

theorem collLowRead_of_ram {c : Params} {b : Board} (mode : lowMode (b.reg 8) = .ram)
    (present : b.ctx.ramPresenceFlags.workRam = true) (m : Memory) (a : Addr) :
    collLowRead c b m a = ramByte m (lowOffset c a) := by
  simp only [collLowRead, mode, present, if_true]

theorem collLowRead_of_openBus {c : Params} {b : Board} (mode : lowMode (b.reg 8) = .openBus) (m : Memory) (a : Addr) :
    collLowRead c b m a = Config.openBus := by
  simp only [collLowRead, mode]

theorem collLowRead_of_noRam {c : Params} {b : Board} (mode : lowMode (b.reg 8) = .ram)
    (absent : b.ctx.ramPresenceFlags.workRam = false) (m : Memory) (a : Addr) :
    collLowRead c b m a = Config.openBus := by
  simp only [collLowRead, mode, absent, Bool.false_eq_true, if_false]

theorem exec_rdLow_bound {s : State} {b : Board} {a : Addr} (hb : s.board = some b)
    (hr : findRead b.bindings a = some .lowPage) :
    exec (.rdLow a) s = .next { s with
      inCycle := true, result := .data (collLowRead s.params b s.wram a), calls := [.lowRead a] } :=
  congrArg Host.Outcome.next (claimedRead_bound (readLowWindow a) hb hr)

/-- Settles O15: the byte is the collaborator's, whose mode the two bits of register 8 pick (R77, D10). -/
theorem lowWindowReadReturnsTheExposedByte : Obligations.LowWindowReadReturnsTheExposedByte := by
  intro s b a hb hr
  refine ⟨collLowRead s.params b s.wram a, exec_rdLow_bound hb hr, ?_, ?_, ?_, ?_⟩
  · intro sel npages index pages inside
    rw [collLowRead_of_rom (lowMode_of_rom sel)]
    exact if_pos ⟨pages, inside⟩
  · exact fun sel en present => collLowRead_of_ram (lowMode_of_ram sel en) present s.wram a
  · exact fun sel en => collLowRead_of_openBus (lowMode_of_openBus sel en) s.wram a
  · intro sel absent
    cases en : (b.regs[8]).getLsbD 7 with
    | true => exact collLowRead_of_noRam (lowMode_of_ram sel en) absent s.wram a
    | false => exact collLowRead_of_openBus (lowMode_of_openBus sel en) s.wram a

/-! ### What a write there stores -/

theorem collLowWrite_of_ram {c : Params} {b : Board} (mode : lowMode (b.reg 8) = .ram)
    (present : b.ctx.ramPresenceFlags.workRam = true) (a : Addr) (v : Byte) (m : Memory) :
    collLowWrite c b a v m = m.write (lowOffset c a) v := by
  simp only [collLowWrite, mode, present, if_true]

theorem collLowWrite_of_not_ram {c : Params} {b : Board}
    (hidden : ¬(lowMode (b.reg 8) = .ram ∧ b.ctx.ramPresenceFlags.workRam = true)) (a : Addr) (v : Byte) (m : Memory) :
    collLowWrite c b a v m = m := by
  unfold collLowWrite
  split
  next mode => exact if_neg fun present => hidden ⟨mode, present⟩
  next => rfl
  next => rfl

theorem lowMode_ram_iff {r : Byte} : lowMode r = .ram ↔ r.getLsbD 6 = true ∧ r.getLsbD 7 = true := by
  rw [lowMode_eq]
  cases r.getLsbD 6 <;> cases r.getLsbD 7 <;> simp

theorem exec_wrLow_bound {s : State} {b : Board} {a : Addr} (hb : s.board = some b)
    (hw : findWrite b.bindings a = some .lowRam) (v : Byte) :
    exec (.wrLow a v) s = .next { s with
      wram := collLowWrite s.params b a v s.wram, inCycle := true, result := .none, calls := [.lowWrite a v] } :=
  congrArg Host.Outcome.next (claimedWrite_bound (writeLowWindow a v) hb hw)

/-- Settles O16: the stored memory is the collaborator's, a `Memory.write` in RAM mode and the memory itself otherwise. -/
theorem lowWindowWriteStoresOneByteOrNothing : Obligations.LowWindowWriteStoresOneByteOrNothing := by
  intro s b a v hb hw
  refine ⟨_, exec_wrLow_bound hb hw v, fun ⟨sel, en, present⟩ => ?_, fun hidden => ?_⟩
  · rw [collLowWrite_of_ram (lowMode_of_ram sel en) present]
    exact ⟨ramByte_write_same _ _ _, fun off other => ramByte_write_other _ _ off v other⟩
  · exact collLowWrite_of_not_ram (fun ⟨mode, present⟩ =>
      hidden ⟨(lowMode_ram_iff.1 mode).1, (lowMode_ram_iff.1 mode).2, present⟩) a v s.wram

/-! ### Reading back -/

/-- Two addresses of a low window no longer than the RAM have two offsets. -/
theorem lowOffset_injective {c : Params} (fits : (c.lowHi - c.lowLo).toNat < 0x2000) {a a' : Addr}
    (ha : inLowWindow c a = true) (ha' : inLowWindow c a' = true) (same : lowOffset c a = lowOffset c a') : a = a' := by
  rw [lowOffset_eq fits a ha, lowOffset_eq fits a' ha'] at same
  rw [inLowWindow, inRange_iff] at ha ha'
  apply BitVec.eq_of_toNat_eq
  omega

/-- Under the invariant an address of the low window is bound to its two handlers. -/
theorem State.Inv.low_bound {s : State} {b : Board} {a : Addr} (inv : s.Inv) (hb : s.board = some b)
    (ha : inLowWindow s.params a = true) :
    findRead b.bindings a = some .lowPage ∧ findWrite b.bindings a = some .lowRam := by
  obtain ⟨-, bindings, -⟩ := inv.agrees b hb
  rw [bindings, Variant.caps_eq]
  exact ⟨(findRead_reference s.params a).trans (if_pos ha), (findWrite_reference s.params a).trans (if_pos ha)⟩

/-- Settles O17: the write and the read are both bound, and the window's offsets tell its addresses apart. -/
theorem lowWindowReadsBackWhatWasWritten : Obligations.LowWindowReadsBackWhatWasWritten := by
  intro s t u b a a' v inv hb mode present ha ha' hwrite hread
  obtain ⟨-, fits, -⟩ := (Params.wf_iff s.params).1 inv.params_wf
  obtain ⟨-, hw⟩ := inv.low_bound hb ha
  obtain ⟨hr, -⟩ := inv.low_bound hb ha'
  rw [exec_wrLow_bound hb hw] at hwrite
  cases Host.Outcome.next.inj hwrite
  rw [exec_rdLow_bound (by exact hb) hr] at hread
  cases Host.Outcome.next.inj hread
  refine congrArg Result.data ?_
  rw [collLowRead_of_ram mode present, collLowRead_of_ram mode present, collLowWrite_of_ram mode present]
  split
  next same => rw [same]; exact ramByte_write_same _ _ _
  next other => exact ramByte_write_other _ _ _ v fun e => other (lowOffset_injective fits ha' ha e)

/-! ### Reads that nothing claims -/

/-- Settles O18: both rows are the unmapped read (R126, R172). -/
theorem unclaimedReadsReturnOpenBus : Obligations.UnclaimedReadsReturnOpenBus := fun _ _ => ⟨rfl, rfl⟩

/-! ### The work RAM -/

/-- What the operations do to the work RAM: a low-window write hands it to the collaborator, every other one keeps it. -/
theorem Effect.wram {i : Instr} {s t : State} (h : Effect i s t) :
    t.wram = s.wram ∨ ∃ a v b, i = .wrLow a v ∧ t.wram = collLowWrite s.params b a v s.wram := by
  cases h with
  | lowWrite _ _ => exact .inr ⟨_, _, _, rfl, rfl⟩
  | irqControl _ _ => rw [storeIrqControl_eq]; exact .inl rfl
  | pulse _ => rw [surfaceFired_eq]; exact .inl rfl
  | busPad _ _ => unfold padRead; split <;> exact .inl rfl
  | loaded _ _ _ =>
    obtain ⟨wram, -⟩ := commitAll_frame _ s.start
    exact .inl wram
  | _ => exact .inl rfl

/-- Settles O20: `Effect.wram`, and the collaborator writes at the offset of its address alone. -/
theorem onlyLowWindowWritesChangeTheRam : Obligations.OnlyLowWindowWritesChangeTheRam := by
  intro i s t h
  rcases (exec_effect h).wram with kept | ⟨a, v, b, rfl, written⟩
  · exact ⟨fun off _ => by rw [kept], fun _ => kept⟩
  · exact ⟨fun off other => by rw [written]; exact collLowWrite_other s.params b a v s.wram off (other a v rfl),
      fun notLow => absurd rfl (notLow a v)⟩

end Sys2Proof.Machine


/-! PROOFS of the statements about who writes the Board (spec/10_state.md sections 1 and 3; spec/42_reference_board.md
section 6) and about the timer (spec/41_timer.md R142 to R146). -/

namespace Sys2Proof.Machine

/-! ### What an operation does to a live Board -/

/-- `BoardStep c i b b'`: the ways in which the operation `i` can leave the live Board `b` as `b'`. -/
inductive BoardStep (c : Params) : Instr → Board → Board → Prop
  | same {i b} : BoardStep c i b b
  | latch {b a v} : BoardStep c (.wrCmd a v) b (b.setLatch (regSel v))
  | register {b} (n a v) (k : RegIx) : BoardStep c (dataRow n a v) b (b.setReg k v)
  | irqControl {b a v} : BoardStep c (.setIrqCtl a v) b
      { b with timer := b.timer.control c v, irqReq := b.irqReq && irqEnBit c v }
  | countLow {b a v} : BoardStep c (.setCntLo a v) b { b with timer := b.timer.loadLow v, irqReq := false }
  | countHigh {b a v} : BoardStep c (.setCntHi a v) b { b with timer := b.timer.loadHigh v, irqReq := false }
  | pulse {b} : BoardStep c .clk b
      { b with timer := (referenceClock b.timer).1, irqReq := (referenceClock b.timer).2 || b.irqReq }
  | soft {b} : BoardStep c .rstSoft b { b with irqReq := false }
  | hard {b} : BoardStep c .rstHard b (newBoard c b.ctx b.variant b.bindings)
  | loaded {b snap tag} (img) : BoardStep c (.load snap tag) b (b.withImage img)

/-- `Commits s t`: what a load does on the Board's side. Nothing, or it commits an image, the collaborator and the line
following it. -/
def Commits (s t : State) : Prop :=
  (t.board = s.board ∧ t.banks = s.banks ∧ t.irqLine = s.irqLine) ∨
  ∃ b img, s.board = some b ∧ t.board = some (b.withImage img) ∧ t.banks = img.regs ∧ t.irqLine = img.irqReq

theorem commitOne_commits (s : State) (st : Staged) : Commits s (commitOne s st) := by
  cases st with
  | board img =>
    simp only [commitOne, commitBoard]
    split
    next b hb => exact .inr ⟨b, img, hb, rfl, rfl, rfl⟩
    next => exact .inl ⟨rfl, rfl, rfl⟩
  | pad p strobe sr =>
    simp only [commitOne, commitPad]
    split <;> exact .inl ⟨rfl, rfl, rfl⟩
  | skipped => exact .inl ⟨rfl, rfl, rfl⟩

theorem Commits.trans {s t u : State} (h : Commits s t) (h' : Commits t u) : Commits s u := by
  rcases h' with ⟨board', banks', line'⟩ | ⟨b', img', hb', board', banks', line'⟩
  · rcases h with ⟨board, banks, line⟩ | ⟨b, img, hb, board, banks, line⟩
    · exact .inl ⟨board'.trans board, banks'.trans banks, line'.trans line⟩
    · exact .inr ⟨b, img, hb, board'.trans board, banks'.trans banks, line'.trans line⟩
  · rcases h with ⟨board, -, -⟩ | ⟨b, img, hb, board, -, -⟩
    · exact .inr ⟨b', img', board ▸ hb', board', banks', line'⟩
    · cases board.symm.trans hb'
      exact .inr ⟨b, img', hb, board', banks', line'⟩

theorem commitAll_commits (sts : List Staged) (s : State) : Commits s (commitAll s sts) := by
  unfold commitAll
  induction sts generalizing s with
  | nil => exact .inl ⟨rfl, rfl, rfl⟩
  | cons x xs ih => exact (commitOne_commits s x).trans (ih (commitOne s x))

/-- A live Board stays, changed by one of these ways, unless it is destroyed. -/
theorem Effect.boardStep {i : Instr} {s t : State} {b : Board} (h : Effect i s t) (hb : s.board = some b) :
    (i = .del ∧ t.board = none) ∨ ∃ b', t.board = some b' ∧ BoardStep s.params i b b' := by
  cases h with
  | latch hb' _ => cases hb.symm.trans hb'; exact .inr ⟨_, rfl, .latch⟩
  | register k row hb' _ => cases hb.symm.trans hb'; exact .inr ⟨_, rfl, row ▸ .register _ _ _ k⟩
  | irqControl hb' _ => cases hb.symm.trans hb'; rw [storeIrqControl_eq]; exact .inr ⟨_, rfl, .irqControl⟩
  | countLow hb' _ => cases hb.symm.trans hb'; exact .inr ⟨_, rfl, .countLow⟩
  | countHigh hb' _ => cases hb.symm.trans hb'; exact .inr ⟨_, rfl, .countHigh⟩
  | pulse hb' => cases hb.symm.trans hb'; rw [surfaceFired_eq]; exact .inr ⟨_, rfl, .pulse⟩
  | soft hb' => cases hb.symm.trans hb'; cases hv : b.variant; exact .inr ⟨_, rfl, .soft⟩
  | hard hb' =>
    cases hb.symm.trans hb'
    exact .inr ⟨_, congrArg some (caps_reset_hard_eq_newBoard s.params b), .hard⟩
  | loaded _ _ _ =>
    rcases commitAll_commits _ s.start with ⟨board, -⟩ | ⟨b', img, hb', board, -⟩
    · exact .inr ⟨b, board.trans hb, .same⟩
    · cases hb.symm.trans hb'; exact .inr ⟨_, board, .loaded img⟩
  | busPad _ _ => exact .inr ⟨b, by unfold padRead; split <;> exact hb, .same⟩
  | destroyed _ => exact .inl ⟨rfl, rfl⟩
  | newRaised none _ | constructed none _ _ | destroyNoBoard none | pulseNoBoard none | softNoBoard none
    | hardNoBoard none => cases hb.symm.trans none
  | _ => exact .inr ⟨b, hb, .same⟩

/-! ### The writers of the registers -/

/-- Settles O25: of the ways a live Board changes, each writes the registers of its own operation. -/
theorem boardRegistersHaveOnlyTheirListedWriters : Obligations.BoardRegistersHaveOnlyTheirListedWriters := by
  intro i s t b b' h hb hb' notHard notLoad
  rcases (exec_effect h).boardStep hb with ⟨-, gone⟩ | ⟨b'', hb'', step⟩
  · cases gone.symm.trans hb'
  cases hb''.symm.trans hb'
  cases step with
  | latch => exact ⟨fun only => absurd rfl (only _ _), fun _ => rfl, fun _ => ⟨rfl, rfl⟩, fun _ _ => rfl⟩
  | register n a v k => exact ⟨fun _ => rfl, fun only => absurd rfl (only n a v), fun _ => ⟨rfl, rfl⟩, fun _ _ => rfl⟩
  | irqControl => exact ⟨fun _ => rfl, fun _ => rfl, fun only => absurd rfl (only _ _), fun _ _ => rfl⟩
  | countLow => exact ⟨fun _ => rfl, fun _ => rfl, fun _ => ⟨rfl, rfl⟩, fun _ only => absurd rfl (only _ _).1⟩
  | countHigh => exact ⟨fun _ => rfl, fun _ => rfl, fun _ => ⟨rfl, rfl⟩, fun _ only => absurd rfl (only _ _).2⟩
  | pulse =>
    refine ⟨fun _ => rfl, fun _ => rfl, fun _ => ?_, fun only => absurd rfl only⟩
    unfold referenceClock
    split <;> exact ⟨rfl, rfl⟩
  | hard => exact absurd rfl notHard
  | loaded img => exact absurd rfl (notLoad _ _)
  | same | soft => exact ⟨fun _ => rfl, fun _ => rfl, fun _ => ⟨rfl, rfl⟩, fun _ _ => rfl⟩

/-! ### The request -/

theorem State.irqReq_of_board {s : State} {b : Board} (hb : s.board = some b) : s.irqReq = b.irqReq := by
  simp only [State.irqReq, hb]

theorem State.irqReq_of_noBoard {s : State} (hb : s.board = none) : s.irqReq = false := by
  simp only [State.irqReq, hb]

/-- Without a Board there is no request, and an operation that makes one leaves it without a request. -/
theorem Effect.irqReq_of_noBoard {i : Instr} {s t : State} (h : Effect i s t) (hb : s.board = none) :
    t.irqReq = false := by
  cases h with
  | latch hb' _ | register _ _ hb' _ | irqControl hb' _ | countLow hb' _ | countHigh hb' _ | pulse hb' | soft hb' | hard hb'
    | destroyed hb' | lowWrite hb' _ | lowRead hb' _ => cases hb.symm.trans hb'
  | loaded _ _ _ =>
    rcases commitAll_commits _ s.start with ⟨board, -⟩ | ⟨b', img, hb', -⟩
    · exact State.irqReq_of_noBoard (board.trans hb)
    · cases hb.symm.trans hb'
  | busPad _ _ => exact State.irqReq_of_noBoard (by unfold padRead; split <;> exact hb)
  | constructed _ _ _ => rfl
  | _ => exact State.irqReq_of_noBoard hb

theorem exec_clk_result {s t : State} {b : Board} (hb : s.board = some b) (h : exec .clk s = .next t) :
    t.result = .fired (referenceClock b.timer).2 := by
  rw [exec_clk_of_board hb, Variant.caps_eq] at h
  cases Host.Outcome.next.inj h
  rfl

/-- Settles O24: without a Board the request stays 0; a live Board's request is changed in the listed ways alone, a pulse
setting it when the policy fired. -/
theorem onlyListedOperationsChangeTheRequest : Obligations.OnlyListedOperationsChangeTheRequest := by
  intro i s t h changed
  cases hb : s.board with
  | none => exact absurd ((exec_effect h).irqReq_of_noBoard hb) (State.irqReq_of_noBoard hb ▸ changed)
  | some b =>
    rw [State.irqReq_of_board hb] at changed
    rcases (exec_effect h).boardStep hb with ⟨rfl, gone⟩ | ⟨b', hb', step⟩
    · exact .inr (.inr (.inr (.inl ⟨.inr (.inr rfl), State.irqReq_of_noBoard gone⟩)))
    rw [State.irqReq_of_board hb'] at changed ⊢
    cases step with
    | same | latch | register _ _ _ _ => exact absurd rfl changed
    | pulse =>
      refine .inl ⟨rfl, ?_⟩
      rw [exec_clk_result hb h]
      cases fired : (referenceClock b.timer).2 with
      | true => exact ⟨rfl, rfl⟩
      | false => simp [fired] at changed
    | @irqControl _ a v =>
      refine .inr (.inl ⟨a, v, rfl, ?_⟩)
      cases enabled : irqEnBit s.params v with
      | true => simp [enabled] at changed
      | false => exact ⟨rfl, Bool.and_false _⟩
    | countLow => exact .inr (.inr (.inl ⟨_, _, .inl rfl, rfl⟩))
    | countHigh => exact .inr (.inr (.inl ⟨_, _, .inr rfl, rfl⟩))
    | soft => exact .inr (.inr (.inr (.inl ⟨.inl rfl, rfl⟩)))
    | hard => exact .inr (.inr (.inr (.inl ⟨.inr (.inl rfl), rfl⟩)))
    | loaded img => exact .inr (.inr (.inr (.inr ⟨_, _, rfl⟩)))

/-! ### The counting policy -/

/-- One down modulo 2^16, as the addition of 0xFFFF. -/
theorem count_sub_one (c : Count) : c - 1 = BitVec.ofNat 16 (c.toNat + 65535) := by
  apply BitVec.eq_of_toNat_eq
  simp [BitVec.toNat_sub]
  omega

theorem count_beq_zero (c : Count) : (c == 0) = decide (c.toNat = 0) := by
  rw [beq_eq_decide, decide_eq_decide]
  exact BitVec.toNat_eq

/-- Settles O22: the two equations of `referenceClock`, the count written as a number. -/
theorem referencePolicyCountsDownAndFires : Obligations.ReferencePolicyCountsDownAndFires := by
  intro c t
  have policy : (Variant.reference.caps c).policy.clock t = referenceClock t := rfl
  rw [policy]
  split
  next running => rw [referenceClock_running running.1 running.2, count_sub_one, count_beq_zero]
  next halted => exact referenceClock_halted (by simpa using halted)

/-! ### The run of the timer -/

/-- `Counting s n r`: the timer runs, `n` pulses before it fires, and the request is `r`. -/
def Counting (s : State) (n : Nat) (r : Bool) : Prop :=
  ∃ b, s.board = some b ∧ b.timer.enabled = true ∧ b.timer.src = true ∧ b.timer.count.toNat = n ∧ b.irqReq = r

/-- A pulse while the timer runs. -/
theorem exec_clk_running {s : State} {b : Board} (hb : s.board = some b) (en : b.timer.enabled = true)
    (src : b.timer.src = true) :
    exec .clk s = .next { s with
      board := some { b with
        timer := { b.timer with count := b.timer.count - 1 }, irqReq := b.timer.count == 0 || b.irqReq }
      irqLine := b.timer.count == 0 || s.irqLine
      inCycle := false
      result := .fired (b.timer.count == 0)
      calls := [] } := by
  rw [exec_clk_of_board hb, Variant.caps_eq, surfaceFired_eq]
  simp only [referenceCapabilities, referencePolicy, referenceClock_running en src]
  rfl

theorem Counting.clk {s : State} {n : Nat} {r : Bool} (h : Counting s (n + 1) r) :
    ∃ t, exec .clk s = .next t ∧ t.result = .fired false ∧ Counting t n r := by
  obtain ⟨b, hb, en, src, count, req⟩ := h
  have notZero : (b.timer.count == 0) = false := by rw [count_beq_zero, count]; rfl
  refine ⟨_, exec_clk_running hb en src, congrArg Result.fired notZero, _, rfl, en, src, ?_, ?_⟩
  · simp only [BitVec.toNat_sub]
    have := b.timer.count.isLt
    simp
    omega
  · simp only [notZero, Bool.false_or, req]

theorem Counting.clk_fires {s : State} {r : Bool} (h : Counting s 0 r) :
    ∃ (u : State) (b' : Board), exec .clk s = .next u ∧ u.result = .fired true ∧ u.irqReq = true ∧ u.irqLine = true ∧
      u.board = some b' ∧ b'.timer.count = 0xFFFF := by
  obtain ⟨b, hb, en, src, count, -⟩ := h
  have zero : b.timer.count = 0 := BitVec.eq_of_toNat_eq count
  have pulse := exec_clk_running hb en src
  rw [zero] at pulse
  exact ⟨_, _, pulse, rfl, rfl, rfl, rfl, rfl⟩

/-- An unrelated bus access leaves the timer and the request of a live Board alone (41_timer.md R146). -/
theorem Counting.unrelated {s : State} {n : Nat} {r : Bool} {i : Instr} (h : Counting s n r) (hi : IsUnrelated i) :
    ∃ t, exec i s = .next t ∧ Counting t n r := by
  obtain ⟨b, hb, running⟩ := h
  obtain ⟨access, notTimer⟩ := hi
  obtain ⟨t, ht, -⟩ := exec_raises_nothing (access.imp_right .inl) s
  refine ⟨t, ht, ?_⟩
  rcases (exec_effect ht).boardStep hb with ⟨rfl, -⟩ | ⟨b', hb', step⟩
  · simp [IsBusWrite, IsBusRead, opClass] at access
  · cases step with
    | same | latch | register _ _ _ _ => exact ⟨_, hb', running⟩
    | irqControl | countLow | countHigh => exact absurd rfl notTimer
    | pulse | soft | hard | loaded _ => simp [IsBusWrite, IsBusRead, opClass] at access

theorem eq_clk_of_isPulse {i : Instr} (h : IsPulse i = true) : i = .clk := by
  cases i
  case clk => rfl
  all_goals cases h

/-- Pulses among unrelated accesses count down, one each. -/
theorem Counting.run {is : List Instr} (ok : ∀ i ∈ is, IsPulse i = true ∨ IsUnrelated i) {s : State} {n : Nat} {r : Bool}
    (h : Counting s (is.countP IsPulse + n) r) : ∃ t, execAll is s = .next t ∧ Counting t n r := by
  induction is generalizing s with
  | nil => exact ⟨s, rfl, by simpa using h⟩
  | cons i is ih =>
    have rest : ∀ j ∈ is, IsPulse j = true ∨ IsUnrelated j := fun j hj => ok j (.tail i hj)
    rcases ok i (.head is) with pulse | unrelated
    · rw [List.countP_cons_of_pos pulse, Nat.add_right_comm] at h
      cases eq_clk_of_isPulse pulse
      obtain ⟨t, ht, -, counting⟩ := h.clk
      rw [execAll_cons_of_next ht]
      exact ih rest counting
    · have notPulse : IsPulse i = false := by
        cases hi : IsPulse i with
        | false => rfl
        | true =>
          cases eq_clk_of_isPulse hi
          simp [IsUnrelated, IsBusWrite, IsBusRead, opClass] at unrelated
      rw [List.countP_cons_of_neg (by simp [notPulse])] at h
      obtain ⟨t, ht, counting⟩ := h.unrelated unrelated
      rw [execAll_cons_of_next ht]
      exact ih rest counting

/-- Running one operation after a list of operations. -/
theorem execAll_snoc_of_next {is : List Instr} {s t : State} (h : execAll is s = .next t) (i : Instr) :
    execAll (is ++ [i]) s = execAll [i] t := by
  induction is generalizing s with
  | nil => cases h; rfl
  | cons j js ih =>
    simp only [execAll, List.cons_append] at h ⊢
    split at h
    next u hu => exact ih h
    next => cases h
    next => cases h

/-- Settles O23: by `Counting`, which counts the pulses of any run down to the one that fires. -/
theorem timerFiresOnThePulseAfterItsCount : Obligations.TimerFiresOnThePulseAfterItsCount := by
  intro s b is hb en src ok pulses
  have start (n : Nat) (hn : b.timer.count.toNat = n) : Counting s n s.irqReq :=
    ⟨b, hb, en, src, hn, (State.irqReq_of_board hb).symm⟩
  refine ⟨fun pre prefixed => ?_, ?_⟩
  · obtain ⟨rest, rfl⟩ := prefixed
    have pre_ok : ∀ i ∈ pre, IsPulse i = true ∨ IsUnrelated i := fun i hi => ok i (by simp [hi])
    have left : b.timer.count.toNat = pre.countP IsPulse + (rest.countP IsPulse + 1) := by
      have clk : IsPulse .clk = true := rfl
      rw [← pulses, List.append_assoc, List.countP_append, List.singleton_append, List.countP_cons_of_pos clk]
    obtain ⟨t, ht, counting⟩ := (start _ left).run pre_ok
    obtain ⟨u, hu, notFired, -⟩ := counting.clk
    exact ⟨u, (execAll_snoc_of_next ht .clk).trans (execAll_cons_of_next hu []), notFired⟩
  · obtain ⟨t, ht, counting⟩ := (start (is.countP IsPulse + 0) pulses.symm).run ok
    have req : t.irqReq = s.irqReq := by
      obtain ⟨b', hb', -, -, -, req⟩ := counting
      rw [State.irqReq_of_board hb', req]
    exact ⟨t, ht, req, counting.clk_fires⟩

end Sys2Proof.Machine


/-! PROOFS of the framework statements (spec/40_dispatch.md section 2, R121 to R129; spec/10_state.md section 4):
construction, ranges, destruction and both resets. -/

namespace Sys2Proof.Machine

/-! ### Construction -/

theorem exec_new_of_board {s : State} {b : Board} (hb : s.board = some b) (ctx : Context) :
    exec (.new ctx) s = .refused .boardActive := by
  simp only [exec, execNew, hb]

/-- Where the windows are no ranges a variant may declare, the construction is refused. -/
theorem exec_new_of_illFormed {s : State} {ctx : Context} (inactive : s.board = none)
    (selected : ctx.variantSelector = .reference) (meet : s.params.windowsApart = false) :
    exec (.new ctx) s = .refused .illFormedRange := by
  have unbound : bindAll [] (referenceRanges s.params) = none := by rw [bindAll_reference, meet]; rfl
  simp only [exec, execNew, inactive, selected, supported, Variant.caps_eq, referenceCapabilities, unbound]

/-- The windows are not apart when one is inverted or two share an address. -/
theorem windowsApart_eq_false {c : Params}
    (h : c.lowHi < c.lowLo ∨ c.cmdHi < c.cmdLo ∨ c.dataHi < c.dataLo ∨ (c.lowLo ≤ c.cmdHi ∧ c.cmdLo ≤ c.lowHi) ∨
      (c.lowLo ≤ c.dataHi ∧ c.dataLo ≤ c.lowHi) ∨ (c.cmdLo ≤ c.dataHi ∧ c.dataLo ≤ c.cmdHi)) :
    c.windowsApart = false := by
  rw [Bool.eq_false_iff]
  intro apart
  obtain ⟨ordered, lowCmd, lowData, cmdData⟩ := (windowsApart_iff c).1 apart
  simp only [rangesMeet, Bool.and_eq_false_iff, decide_eq_false_iff_not, BitVec.le_def, BitVec.lt_def] at *
  omega

/-- The calls that tell the collaborator of registers that all hold one byte. -/
theorem bankCalls_replicate (v : Byte) :
    bankCalls (Vector.replicate 13 v) = (List.finRange 13).map fun i => .bankSelect i v := by
  unfold bankCalls
  refine List.map_congr_left fun i _ => ?_
  rw [Fin.getElem_fin, Vector.getElem_replicate]

/-- Settles O26: `execNew` asks for no Board, then for a supported selector, then for ranges that bind (R121, R122). -/
theorem constructionGivesTheResetBoard : Obligations.ConstructionGivesTheResetBoard := by
  refine ⟨fun s ctx b hb => exec_new_of_board hb ctx, fun s ctx inactive selected meet => ?_,
    fun s ctx inactive selected apart => ?_⟩
  · exact exec_new_of_illFormed inactive selected (windowsApart_eq_false meet)
  · have supports : supported ctx.variantSelector = some .reference := by rw [selected]; rfl
    rw [exec_new_of_supported inactive supports apart, ← bankCalls_replicate]
    rfl

/-! ### Ranges -/

theorem bindRange_of_apart {bs : List Binding} {low high : Addr} {h : Handler} (ordered : low ≤ high)
    (apart : ∀ x ∈ bs, handlersClash x.handler h = true → x.high < low ∨ high < x.low) :
    bindRange bs low high h = some (bs ++ [⟨low, high, h⟩]) := by
  refine if_pos ?_
  simp only [ordered, decide_true, Bool.true_and, List.all_eq_true]
  intro x hx
  cases clash : handlersClash x.handler h with
  | false => rfl
  | true =>
    have := apart x hx clash
    simp only [rangesMeet, Bool.true_and, Bool.not_eq_true', Bool.and_eq_false_iff, decide_eq_false_iff_not, BitVec.le_def,
      BitVec.lt_def] at *
    omega

theorem bindRange_of_illFormed {bs : List Binding} {low high : Addr} {h : Handler}
    (bad : high < low ∨ ∃ x ∈ bs, handlersClash x.handler h = true ∧ x.low ≤ high ∧ low ≤ x.high) :
    bindRange bs low high h = none := by
  refine if_neg fun good => ?_
  obtain ⟨ordered, apart⟩ := Bool.and_eq_true_iff.1 good
  rcases bad with inverted | ⟨x, hx, clash, meets⟩
  · have := of_decide_eq_true ordered
    rw [BitVec.le_def] at this
    rw [BitVec.lt_def] at inverted
    omega
  · have := List.all_eq_true.1 apart x hx
    simp [clash, rangesMeet, meets] at this

/-- Settles O28: a construction in progress appends what `bindRange` accepts, and without one the operation is refused. -/
theorem rangeBindsOnlyInsideAConstruction : Obligations.RangeBindsOnlyInsideAConstruction := by
  refine ⟨fun s bs low high h building ordered apart => ?_, fun s bs low high h building bad => ?_,
    fun s low high h none => ?_⟩
  · simp only [exec, execRange, building, bindRange_of_apart ordered apart]
    rfl
  · simp only [exec, execRange, building, bindRange_of_illFormed bad]
  · simp only [exec, execRange, none]

/-! ### Destruction -/

theorem exec_del_of_noBoard {s : State} (hb : s.board = none) : exec .del s = .next s.start := by
  simp only [exec, execDel, hb]

/-- Settles O29: with a Board its request and the line are dropped before it goes, without one nothing happens (R123). -/
theorem destructionReleasesTheLine : Obligations.DestructionReleasesTheLine := by
  exact ⟨fun s b => exec_del_of_board, fun s => exec_del_of_noBoard⟩

/-! ### Reset -/

/-- A variant's soft reset drops the request and keeps the rest (R45, R144). -/
theorem caps_reset_soft (c : Params) (b : Board) : (b.variant.caps c).reset false b = { b with irqReq := false } := by
  rw [Variant.caps_eq]
  rfl

theorem exec_rstHard_of_noBoard {s : State} (hb : s.board = none) :
    exec .rstHard s = .next (s.start.setInCycle false).resetPorts := by
  simp only [exec, execRstHard, hb]

/-- Settles O30: the Board becomes `newBoard` over its own Context and bindings, every port is reset by the one function
of R47. -/
theorem hardResetRestoresTheDefaults : Obligations.HardResetRestoresTheDefaults := by
  refine ⟨fun s b hb => ?_, fun s => exec_rstHard_of_noBoard⟩
  simp only [exec, execRstHard, hb, boardHardReset, boardReset, Variant.caps_eq]
  rw [← bankCalls_replicate]
  rfl

theorem exec_rstSoft_of_noBoard {s : State} (hb : s.board = none) : exec .rstSoft s = .next s.start.resetPorts := by
  simp only [exec, execRstSoft, hb]

/-- Settles O31: `caps_reset_soft` on the Board, the same function on the ports. -/
theorem softResetPreservesTheBoard : Obligations.SoftResetPreservesTheBoard := by
  refine ⟨fun s b hb => ?_, fun s => exec_rstSoft_of_noBoard⟩
  simp only [exec, execRstSoft, hb, boardReset, State.start_params, caps_reset_soft]
  rfl

/-- What a reset leaves of the ports depends on what it does not write alone. -/
theorem map_resetPort_congr {ps qs : List Port}
    (same : ps.map (fun q => (q.mode, q.buttonsIn, q.auxIn)) = qs.map (fun q => (q.mode, q.buttonsIn, q.auxIn))) :
    (ps.map fun q => { Port.fresh with mode := q.mode, buttonsIn := q.buttonsIn, auxIn := q.auxIn }) =
      qs.map fun q => { Port.fresh with mode := q.mode, buttonsIn := q.buttonsIn, auxIn := q.auxIn } := by
  have through := congrArg (List.map fun kept : FilterMode × Byte × Bool =>
    { Port.fresh with mode := kept.1, buttonsIn := kept.2.1, auxIn := kept.2.2 }) same
  simpa only [List.map_map, Function.comp_def] using through

/-- Settles O33: after the reset a state is what the statement's hypotheses name and values of the reset. -/
theorem hardResetForgetsThePast : Obligations.HardResetForgetsThePast := by
  intro s₁ s₂ params boards construction ports wram trace collaborator
  obtain ⟨reset, resetNoBoard⟩ := hardResetRestoresTheDefaults
  cases hb₁ : s₁.board with
  | none =>
    have hb₂ : s₂.board = none := by simpa [hb₁] using boards.symm
    obtain ⟨banks, line⟩ := collaborator hb₁
    rw [resetNoBoard s₁ hb₁, resetNoBoard s₂ hb₂]
    simp only [params, hb₁, hb₂, construction, wram, trace, banks, line, map_resetPort_congr ports]
  | some b₁ =>
    rw [hb₁] at boards
    obtain ⟨b₂, hb₂, same⟩ := Option.map_eq_some_iff.1 boards.symm
    obtain ⟨ctx, variant, bindings⟩ : b₂.ctx = b₁.ctx ∧ b₂.variant = b₁.variant ∧ b₂.bindings = b₁.bindings := by
      simpa using same
    rw [reset s₁ b₁ hb₁, reset s₂ b₂ hb₂]
    simp only [params, ctx, variant, bindings, construction, wram, trace, map_resetPort_congr ports]

/-! ### What stays fixed -/

/-- Of the ways a live Board changes none touches what it was constructed from. -/
theorem BoardStep.fixed {c : Params} {i : Instr} {b b' : Board} (h : BoardStep c i b b') :
    b'.bindings = b.bindings ∧ b'.ctx = b.ctx ∧ b'.variant = b.variant := by
  cases h with
  | hard => rw [newBoard, Variant.caps_eq]; exact ⟨rfl, rfl, rfl⟩
  | _ => exact ⟨rfl, rfl, rfl⟩

/-- Settles O37: `BoardStep.fixed` for a Board that stays, the frame of every effect for the parameters, and `newBoard` over
the declared ranges for a construction. -/
theorem bindingsAndContextAreFixed : Obligations.BindingsAndContextAreFixed := by
  refine ⟨fun i s t b b' h hb hb' => ?_, fun i s t h => exec_params h, fun s t ctx b h hb => ?_⟩
  · rcases (exec_effect h).boardStep hb with ⟨-, gone⟩ | ⟨b'', hb'', step⟩
    · cases gone.symm.trans hb'
    · cases hb''.symm.trans hb'
      exact step.fixed
  · cases inactive : s.board with
    | some b' => cases (exec_new_of_board inactive ctx).symm.trans h
    | none =>
      cases selected : ctx.variantSelector with
      | other n =>
        cases Host.Outcome.next.inj ((exec_new_of_unsupported inactive selected).symm.trans h)
        cases inactive.symm.trans hb
      | reference =>
        cases apart : s.params.windowsApart with
        | false => cases (exec_new_of_illFormed inactive selected apart).symm.trans h
        | true =>
          have built := exec_new_of_supported (v := .reference) inactive (by rw [selected]; rfl) apart
          cases Host.Outcome.next.inj (built.symm.trans h)
          cases hb
          exact ⟨rfl, rfl⟩

end Sys2Proof.Machine


/-! PROOFS of the controller statements (spec/43_controller.md sections 1 and 3; spec/10_state.md sections 2 and 4),
continued: the port operations one by one, their bus rows, and what no other operation does to a port. -/

namespace Sys2Proof.Machine

/-! ### The port operations -/

theorem Port.falls_iff {v : Byte} {q : Port} : q.falls v = true ↔ q.strobe = true ∧ v.getLsbD 0 = false := by
  simp [Port.falls, strobeBit]

theorem strobeBit_of_falls {v : Byte} {q : Port} (h : q.falls v = true) : strobeBit v = false := (Port.falls_iff.1 h).2

/-- The falling edge of the strobe: the port polls and loads its shift register (R192, R196). -/
theorem Port.strobeWrite_of_falls {v : Byte} {q : Port} (h : q.falls v = true) (c : Params) :
    q.strobeWrite c v = { q.poll c with strobe := false, sr := ~~~(q.poll c).state } := by
  simp only [Port.strobeWrite, if_pos h, strobeBit_of_falls h]
  rfl

theorem Port.strobeWrite_of_not_falls {v : Byte} {q : Port} (h : ¬q.falls v = true) (c : Params) :
    q.strobeWrite c v = { q with strobe := strobeBit v } :=
  if_neg h

theorem Port.strobeWriteAux_eq (v : Byte) (q : Port) (aux : Bool) :
    q.strobeWriteAux v aux = (aux || (q.strobe && !(v.getLsbD 0) && q.auxIn)) := by
  unfold Port.strobeWriteAux Port.pollAux Port.falls strobeBit
  cases q.strobe <;> cases v.getLsbD 0 <;> simp

theorem exec_pw_of_present {s : State} {p : PortIx} {q : Port} (present : s.ports[p.val]? = some q) (v : Byte) :
    exec (.pw p v) s = .next (padWrite p v q s.start) :=
  withPort_present (padWrite p v) present

/-- Settles O39: the two equations of `Port.strobeWrite`. -/
theorem strobeWritePollsOnTheFallingEdge : Obligations.StrobeWritePollsOnTheFallingEdge := by
  intro s p q v present
  rw [exec_pw_of_present present]
  refine ⟨fun high low => ?_, fun noEdge => ?_⟩
  · have falls := Port.falls_iff.2 ⟨high, low⟩
    rw [padWrite, Port.strobeWrite_of_falls falls, Port.strobeWriteAux, if_pos falls]
    rfl
  · have noFall : ¬q.falls v = true := fun falls => noEdge (Port.falls_iff.1 falls)
    rw [padWrite, Port.strobeWrite_of_not_falls noFall, Port.strobeWriteAux, if_neg noFall]
    rfl

/-- Settles O40: `Port.serialByte_eq` on the port that is there. -/
theorem serialReadReturnsTheInvertedLowBit : Obligations.SerialReadReturnsTheInvertedLowBit := by
  intro s p q present
  have read : exec (.prLow p) s = .next (serialRead p q s.start) := withPort_present (serialRead p) present
  rw [read, serialRead, Port.serialByte_eq]
  rfl

/-- Settles O41: `pollRead` on the port that is there. -/
theorem strobeHighReadPolls : Obligations.StrobeHighReadPolls :=
  fun _ p _ present => withPort_present (pollRead p) present

/-- Settles O42: each operation sets its fields on the port that is there. -/
theorem inputAndModeWriteTheirOwnFields : Obligations.InputAndModeWriteTheirOwnFields :=
  fun _ _ _ present => ⟨fun _ _ => withPort_present _ present, fun _ => withPort_present _ present⟩

/-- Every port operation is `withPort` of its port. -/
theorem exec_namesPort {i : Instr} {p : PortIx} (hi : NamesPort i p) : ∃ effect, ∀ s, exec i s = withPort p effect s := by
  rcases hi with rfl | ⟨v, rfl⟩ | rfl | rfl | ⟨mask, aux, rfl⟩ | ⟨m, rfl⟩ <;> exact ⟨_, fun _ => rfl⟩

/-- Settles O43: `withPort` refuses a port that is not there (R65). -/
theorem absentPortsAreRefused : Obligations.AbsentPortsAreRefused := by
  intro s i p hi absent
  obtain ⟨effect, meaning⟩ := exec_namesPort hi
  rw [meaning]
  exact withPort_absent effect (List.getElem?_eq_none absent)

/-! ### The bus rows of the ports -/

/-- The shared bit handed from port to port collects the lines of those that poll. -/
theorem foldl_strobeWriteAux (v : Byte) (ports : List Port) (aux : Bool) :
    ports.foldl (fun x q => q.strobeWriteAux v x) aux =
      (aux || ports.any fun q => q.strobe && !(v.getLsbD 0) && q.auxIn) := by
  induction ports generalizing aux with
  | nil => simp
  | cons q qs ih => rw [List.foldl_cons, ih, Port.strobeWriteAux_eq, List.any_cons, Bool.or_assoc]

/-- Settles O44: `padWriteAll` maps over the ports what `padWrite` does to one. -/
theorem busStrobeWriteReachesEveryPort : Obligations.BusStrobeWriteReachesEveryPort := by
  intro s v
  refine ⟨padWriteAll v s.beginBus, rfl, fun p q present => ⟨_, exec_pw_of_present present v, ?_⟩, ?_, ?_, rfl⟩
  · obtain ⟨inside, rfl⟩ := List.getElem?_eq_some_iff.1 present
    simp [padWriteAll, padWrite, State.setPorts, State.setAux, State.setPort, inside]
  · simp [padWriteAll, State.setPorts, State.setAux]
  · exact foldl_strobeWriteAux v s.ports s.aux

theorem exec_padRow (p : PortIx) (q : Port) (s : State) (present : s.ports[p.val]? = some q) :
    exec (if q.strobe then .prHigh p else .prLow p) s = .next (padRead p q s.start) := by
  unfold padRead
  split
  · exact withPort_present (pollRead p) present
  · exact withPort_present (serialRead p) present

theorem padRead_beginBus (p : PortIx) (q : Port) (s : State) :
    padRead p q s.beginBus = { padRead p q s.start with inCycle := true } := by
  unfold padRead
  split <;> rfl

/-- Settles O45: both bus rows are `busPadRead` of their port, which is the port's own read in an open cycle. -/
theorem busPadReadsFollowTheStrobe : Obligations.BusPadReadsFollowTheStrobe := by
  intro s r p hr
  have row : exec r s = .next (busPadRead p s) := by rcases hr with ⟨rfl, rfl⟩ | ⟨rfl, rfl⟩ <;> rfl
  refine ⟨fun q present => ⟨_, exec_padRow p q s present, ?_⟩, fun absent => ?_⟩
  · rw [row, busPadRead_present present, padRead_beginBus]
  · rw [row, busPadRead_absent absent]
    rfl

/-! ### What a port operation leaves alone -/

/-- A port operation replaces at most its own port, the shared bit and the outputs. -/
theorem exec_namesPort_frame {i : Instr} {p : PortIx} {s t : State} (hi : NamesPort i p) (h : exec i s = .next t) :
    ∃ ports, (ports = s.ports ∨ ∃ q, ports = s.ports.set p.val q) ∧
      t = { s with ports := ports, aux := t.aux, result := t.result, calls := [] } := by
  rcases hi with rfl | ⟨v, rfl⟩ | rfl | rfl | ⟨mask, aux, rfl⟩ | ⟨m, rfl⟩ <;> obtain ⟨q, -, rfl⟩ := withPort_next h
  · exact ⟨s.ports, .inl rfl, rfl⟩
  all_goals exact ⟨_, .inr ⟨_, rfl⟩, rfl⟩

/-- Settles O47: the list of ports is the old one, or the old one with the named port replaced. -/
theorem portsAreIndependentButForTheAuxiliaryBit : Obligations.PortsAreIndependentButForTheAuxiliaryBit := by
  intro i s t p hi h
  obtain ⟨ports, replaced, frame⟩ := exec_namesPort_frame hi h
  have same : t.ports = ports := congrArg State.ports frame
  rw [same]
  refine ⟨fun k other => ?_, ?_, frame⟩
  · rcases replaced with rfl | ⟨q, rfl⟩
    · rfl
    · exact List.getElem?_set_ne (Ne.symm other)
  · rcases replaced with rfl | ⟨q, rfl⟩
    · rfl
    · exact List.length_set

/-- Settles O48: the effects that write a port or the shared bit are those of the controller operations, of the resets and
of a load. -/
theorem boardOperationsLeaveTheControllersAlone : Obligations.BoardOperationsLeaveTheControllersAlone := by
  intro i s t hi h
  cases exec_effect h with
  | irqControl _ _ => rw [storeIrqControl_eq]; exact ⟨rfl, rfl⟩
  | pulse _ => rw [surfaceFired_eq]; exact ⟨rfl, rfl⟩
  | busPad row _ => rcases row with ⟨rfl, -⟩ | ⟨rfl, -⟩ <;> simp [IsBoardOp, opClass] at hi
  | strobeAll | soft _ | softNoBoard _ | hard _ | hardNoBoard _ | beginFrame _ | strobeOne _ | serial _ | polled _ | lines _
    | setMode _ | loaded _ _ _ => simp [IsBoardOp, opClass] at hi
  | _ => exact ⟨rfl, rfl⟩

end Sys2Proof.Machine


/-! PROOFS of the controller statements (spec/43_controller.md sections 1 and 3; spec/10_state.md sections 2 and 4),
continued: what an operation can do to a port, said once, and the read-out of the latched buttons. -/

namespace Sys2Proof.Machine

/-! ### What an operation does to a port -/

/-- `PortStep c i k q q'`: the ways in which the operation `i` can leave the port `q` of index `k` as `q'`. -/
inductive PortStep (c : Params) (i : Instr) (k : Nat) (q : Port) : Port → Prop
  | same : (∀ p : PortIx, p.val = k → IsSerialRead p i = false) → PortStep c i k q q
  | strobe {v} : (i = .wrStrobe v ∨ ∃ p : PortIx, p.val = k ∧ i = .pw p v) → PortStep c i k q (q.strobeWrite c v)
  | serial {p} : p.val = k → IsSerialRead p i = true → PortStep c i k q q.shift
  | polled {p} : p.val = k → (i = .prHigh p ∨ (IsSerialRead p i = true ∧ q.strobe = true)) → PortStep c i k q (q.poll c)
  | lines {p mask aux} : p.val = k → i = .input p mask aux → PortStep c i k q { q with buttonsIn := mask, auxIn := aux }
  | setMode {p m} : p.val = k → i = .mode p m → PortStep c i k q { q with mode := m, hmask := 0, vmask := 0 }
  | reset : (i = .rstSoft ∨ i = .rstHard) → PortStep c i k q q.resetPort
  | loaded {snap tag} (strobe sr) : i = .load snap tag → PortStep c i k q { q with strobe := strobe, sr := sr }

/-- `PortsStep c i ps qs`: the ports stay as many, each changed by a `PortStep`. -/
def PortsStep (c : Params) (i : Instr) (ps qs : List Port) : Prop :=
  qs.length = ps.length ∧ ∀ (k : Nat) (q : Port), ps[k]? = some q → ∃ q', qs[k]? = some q' ∧ PortStep c i k q q'

theorem PortsStep.same {c : Params} {i : Instr} {ps : List Port} (h : ∀ p : PortIx, IsSerialRead p i = false) :
    PortsStep c i ps ps :=
  ⟨rfl, fun _ q hq => ⟨q, hq, .same fun p _ => h p⟩⟩

/-- An operation that changes all ports alike. -/
theorem PortsStep.map {c : Params} {i : Instr} {ps : List Port} {f : Port → Port} (h : ∀ k q, PortStep c i k q (f q)) :
    PortsStep c i ps (ps.map f) :=
  ⟨List.length_map f, fun k q hq => ⟨f q, by simp [hq], h k q⟩⟩

/-- An operation that changes one port, and is a serial read of no other. -/
theorem PortsStep.set {c : Params} {i : Instr} {ps : List Port} {p : PortIx} {q q' : Port} (present : ps[p.val]? = some q)
    (others : ∀ p' : PortIx, p' ≠ p → IsSerialRead p' i = false) (h : PortStep c i p.val q q') :
    PortsStep c i ps (ps.set p.val q') := by
  refine ⟨List.length_set, fun k r hr => ?_⟩
  by_cases here : p.val = k
  · subst here
    cases present.symm.trans hr
    obtain ⟨inside, -⟩ := List.getElem?_eq_some_iff.1 present
    exact ⟨q', List.getElem?_set_self inside, h⟩
  · refine ⟨r, (List.getElem?_set_ne here).trans hr, .same fun p' hp' => others p' ?_⟩
    rintro rfl
    exact here hp'

theorem isSerialRead_of_isBusWrite {i : Instr} (h : IsBusWrite i) (p : PortIx) : IsSerialRead p i = false := by
  cases i
  case rdPad0 | rdPad1 | prLow => simp [IsBusWrite, opClass] at h
  all_goals simp [IsSerialRead]

theorem isBusWrite_dataRow (n : BitVec 4) (a : Addr) (v : Byte) : IsBusWrite (dataRow n a v) := by
  rcases opClass_dataRow n a v with e | e <;> simp [IsBusWrite, e]

/-- A read-out of one port is none of another. -/
theorem isSerialRead_other {i : Instr} {p p' : PortIx} (h : IsSerialRead p i = true) (other : p' ≠ p) :
    IsSerialRead p' i = false := by
  cases i
  case rdPad0 | rdPad1 | prLow =>
    simp [IsSerialRead] at h ⊢
    subst h
    exact fun e => other (by rw [e])
  all_goals simp [IsSerialRead] at h

theorem padRead_portsStep {c : Params} {i : Instr} {p : PortIx} {q : Port} {s : State} (hc : s.params = c)
    (read : IsSerialRead p i = true) (present : s.ports[p.val]? = some q) :
    PortsStep c i s.ports (padRead p q s).ports := by
  subst hc
  unfold padRead
  split
  next high => exact .set present (fun _ => isSerialRead_other read) (.polled rfl (.inr ⟨read, high⟩))
  next low => exact .set present (fun _ => isSerialRead_other read) (.serial rfl read)

/-- A committed load keeps every port but for its strobe and its shift register. -/
theorem commitAll_ports (sts : List Staged) (s : State) {k : Nat} {q : Port} (hq : s.ports[k]? = some q) :
    ∃ strobe sr, (commitAll s sts).ports[k]? = some { q with strobe := strobe, sr := sr } := by
  unfold commitAll
  induction sts generalizing s q with
  | nil => exact ⟨q.strobe, q.sr, hq⟩
  | cons x xs ih =>
    obtain ⟨strobe, sr, h⟩ : ∃ strobe sr, (commitOne s x).ports[k]? = some { q with strobe := strobe, sr := sr } := by
      cases x with
      | board img => exact ⟨q.strobe, q.sr, by simp only [commitOne, commitBoard]; split <;> exact hq⟩
      | skipped => exact ⟨q.strobe, q.sr, hq⟩
      | pad p strobe sr =>
        simp only [commitOne, commitPad]
        split
        next r hr =>
          by_cases here : p.val = k
          · subst here
            cases hq.symm.trans hr
            obtain ⟨inside, -⟩ := List.getElem?_eq_some_iff.1 hq
            exact ⟨strobe, sr, List.getElem?_set_self inside⟩
          · exact ⟨q.strobe, q.sr, (List.getElem?_set_ne here).trans hq⟩
        next => exact ⟨q.strobe, q.sr, hq⟩
    obtain ⟨strobe', sr', h'⟩ := ih (commitOne s x) h
    exact ⟨strobe', sr', h'⟩

/-- What an operation that answers does to the ports. -/
theorem Effect.portsStep {i : Instr} {s t : State} (h : Effect i s t) : PortsStep s.params i s.ports t.ports := by
  cases h with
  | register _ row _ _ => exact .same (isSerialRead_of_isBusWrite (row ▸ isBusWrite_dataRow _ _ _))
  | irqControl _ _ => rw [storeIrqControl_eq]; exact .same (by simp [IsSerialRead])
  | pulse _ => rw [surfaceFired_eq]; exact .same (by simp [IsSerialRead])
  | unmappedWrite busWrite _ => exact .same (isSerialRead_of_isBusWrite busWrite)
  | unmappedRead _ _ absent =>
    refine ⟨rfl, fun k q hq => ⟨q, hq, .same fun p hp => ?_⟩⟩
    subst hp
    rw [Bool.eq_false_iff]
    intro read
    cases hq.symm.trans (absent p read)
  | strobeAll => exact .map fun _ _ => .strobe (.inl rfl)
  | busPad row present =>
    exact padRead_portsStep rfl (by rcases row with ⟨rfl, rfl⟩ | ⟨rfl, rfl⟩ <;> rfl) present
  | soft _ | softNoBoard _ => exact .map fun _ _ => .reset (.inl rfl)
  | hard _ | hardNoBoard _ => exact .map fun _ _ => .reset (.inr rfl)
  | strobeOne present => exact .set present (by simp [IsSerialRead]) (.strobe (.inr ⟨_, rfl, rfl⟩))
  | serial present =>
    have read (p : PortIx) : IsSerialRead p (.prLow p) = true := by simp [IsSerialRead]
    exact .set present (fun _ => isSerialRead_other (read _)) (.serial rfl (read _))
  | polled present => exact .set present (by simp [IsSerialRead]) (.polled rfl (.inl rfl))
  | lines present => exact .set present (by simp [IsSerialRead]) (.lines rfl rfl)
  | setMode present => exact .set present (by simp [IsSerialRead]) (.setMode rfl rfl)
  | loaded _ _ _ =>
    refine ⟨(commitAll_frame _ s.start).2.2.2.2.2.2.2, fun k q hq => ?_⟩
    obtain ⟨strobe, sr, hq'⟩ := commitAll_ports _ s.start hq
    exact ⟨_, hq', .loaded strobe sr rfl⟩
  | sync row => rcases row with rfl | rfl | rfl | rfl <;> exact .same (by simp [IsSerialRead])
  | _ => exact .same (by simp [IsSerialRead])

/-! ### Modes and lines -/

/-- What a step keeps of each port it keeps of the list. -/
theorem PortsStep.map_eq {β : Type} {c : Params} {i : Instr} {ps qs : List Port} {f : Port → β} (h : PortsStep c i ps qs)
    (keeps : ∀ {k q q'}, PortStep c i k q q' → f q' = f q) : qs.map f = ps.map f := by
  obtain ⟨length, ports⟩ := h
  apply List.ext_getElem?
  intro k
  rw [List.getElem?_map, List.getElem?_map]
  cases hq : ps[k]? with
  | none => rw [List.getElem?_eq_none (length ▸ List.getElem?_eq_none_iff.1 hq)]
  | some q =>
    obtain ⟨q', hq', step⟩ := ports k q hq
    rw [hq', Option.map_some, Option.map_some, keeps step]

/-- A strobe write sets neither the mode nor the lines. -/
theorem Port.strobeWrite_hostFields (c : Params) (v : Byte) (q : Port) :
    (q.strobeWrite c v).mode = q.mode ∧ (q.strobeWrite c v).buttonsIn = q.buttonsIn ∧
      (q.strobeWrite c v).auxIn = q.auxIn := by
  unfold Port.strobeWrite
  split <;> exact ⟨rfl, rfl, rfl⟩

theorem PortStep.mode_eq {c : Params} {i : Instr} {k : Nat} {q q' : Port} (h : PortStep c i k q q')
    (notMode : ∀ p m, i ≠ .mode p m) : q'.mode = q.mode := by
  cases h with
  | strobe _ => exact (q.strobeWrite_hostFields c _).1
  | setMode _ row => exact absurd row (notMode _ _)
  | _ => rfl

theorem PortStep.lines_eq {c : Params} {i : Instr} {k : Nat} {q q' : Port} (h : PortStep c i k q q')
    (notInput : ∀ p m x, i ≠ .input p m x) : (q'.buttonsIn, q'.auxIn) = (q.buttonsIn, q.auxIn) := by
  cases h with
  | strobe _ =>
    obtain ⟨-, buttons, aux⟩ := q.strobeWrite_hostFields c ‹_›
    rw [buttons, aux]
  | lines _ row => exact absurd row (notInput _ _ _)
  | _ => rfl

/-- Settles O49: each port changes by a `PortStep`, and of those only MODE's sets the mode and only IN's the lines. -/
theorem modesAndLinesAreHostControlled : Obligations.ModesAndLinesAreHostControlled := by
  intro i s t h
  have step := (exec_effect h).portsStep
  exact ⟨step.1, fun notMode => step.map_eq fun port => port.mode_eq notMode,
    fun notInput => step.map_eq fun port => port.lines_eq notInput⟩

/-! ### The read-out -/

/-- `Remaining mask n sr`: the shift register holds what is left of the latched mask after `n` reads, inverted, and beyond
it the inverted exhausted bit (R211, R212). -/
def Remaining (mask : Byte) (n : Nat) (sr : Byte) : Prop :=
  ∀ j < 8, sr.getLsbD j = !(if n + j < 8 then mask.getLsbD (n + j) else Config.padExhausted.getLsbD 0)

theorem remaining_loaded (mask : Byte) : Remaining mask 0 (~~~mask) := by
  intro j hj
  simp [hj]

theorem Remaining.shift {mask : Byte} {n : Nat} {q : Port} (h : Remaining mask n q.sr) :
    Remaining mask (n + 1) q.shift.sr := by
  intro j hj
  rw [Port.shift_sr, BitVec.getLsbD_append]
  by_cases last : j = 7
  · subst last
    have past : ¬n + 1 + 7 < 8 := by omega
    simp [past, padFill]
  · have inside : j < 7 := by omega
    have next := h (1 + j) (by omega)
    rw [← Nat.add_assoc] at next
    simp [inside, next]

/-- `ReadingOut s p mask n`: port `p`, its strobe low, has `n` bits of the latched mask behind it. -/
def ReadingOut (s : State) (p : PortIx) (mask : Byte) (n : Nat) : Prop :=
  ∃ q, s.ports[p.val]? = some q ∧ q.strobe = false ∧ Remaining mask n q.sr

/-- The falling edge loads the register with the complement of the latched mask. -/
theorem exec_pw_readingOut {s t : State} {p : PortIx} {q : Port} {v : Byte} (present : s.ports[p.val]? = some q)
    (falls : q.falls v = true) (h : exec (.pw p v) s = .next t) :
    ReadingOut t p (filterMask s.params q.mode q.buttonsIn q.prevRaw q.hmask q.vmask).out 0 := by
  cases Host.Outcome.next.inj ((exec_pw_of_present present v).symm.trans h)
  obtain ⟨inside, -⟩ := List.getElem?_eq_some_iff.1 present
  refine ⟨_, List.getElem?_set_self inside, ?_⟩
  rw [Port.strobeWrite_of_falls falls]
  exact ⟨rfl, remaining_loaded _⟩

/-- One operation of a read-out: a serial read shifts, every other operation keeps the register and the strobe. -/
theorem ReadingOut.step {s t : State} {p : PortIx} {mask : Byte} {n : Nat} {i : Instr} (reading : ReadingOut s p mask n)
    (hi : InReadOut p i) (h : exec i s = .next t) :
    ReadingOut t p mask (n + if IsSerialRead p i then 1 else 0) := by
  obtain ⟨q, present, low, remaining⟩ := reading
  obtain ⟨notStrobe, notReset, notLoad, notWrite⟩ := hi
  obtain ⟨q', present', step⟩ := (exec_effect h).portsStep.2 p.val q present
  refine ⟨q', present', ?_⟩
  cases step with
  | same notRead => rw [notRead p rfl]; exact ⟨low, remaining⟩
  | strobe row =>
    rcases row with rfl | ⟨p', hp, rfl⟩
    · exact absurd rfl notStrobe
    · exact absurd (by rw [Fin.ext hp]) (notWrite _)
  | serial hp read =>
    cases Fin.ext hp
    rw [read]
    exact ⟨low, remaining.shift⟩
  | polled hp row =>
    rcases row with rfl | ⟨-, high⟩
    · exact ⟨low, remaining⟩
    · cases low.symm.trans high
  | lines _ row | setMode _ row => subst row; exact ⟨low, remaining⟩
  | reset row => rcases row with rfl | rfl <;> exact absurd rfl notReset
  | loaded _ _ row => exact absurd row (notLoad _ _)

theorem execAll_cons_next {i : Instr} {is : List Instr} {s u : State} (h : execAll (i :: is) s = .next u) :
    ∃ t, exec i s = .next t ∧ execAll is t = .next u := by
  simp only [execAll] at h
  split at h
  next t ht => exact ⟨t, ht, h⟩
  next => cases h
  next => cases h

theorem execAll_params {is : List Instr} {s t : State} (h : execAll is s = .next t) : t.params = s.params := by
  induction is generalizing s with
  | nil => cases h; rfl
  | cons i is ih =>
    obtain ⟨u, hu, rest⟩ := execAll_cons_next h
    exact (ih rest).trans (exec_params hu)

theorem ReadingOut.run {is : List Instr} {s t : State} {p : PortIx} {mask : Byte} {n : Nat} (reading : ReadingOut s p mask n)
    (ok : ∀ i ∈ is, InReadOut p i) (h : execAll is s = .next t) :
    ReadingOut t p mask (n + is.countP (IsSerialRead p)) := by
  induction is generalizing s n with
  | nil => cases h; exact reading
  | cons i is ih =>
    obtain ⟨u, hu, rest⟩ := execAll_cons_next h
    have further := ih (reading.step (ok i (.head is)) hu) (fun j hj => ok j (.tail i hj)) rest
    rwa [List.countP_cons, Nat.add_comm (is.countP _), ← Nat.add_assoc]

/-- Bit 0 of a strobe-low read is the inverted low bit of the register: the auxiliary bit stands elsewhere. -/
theorem Port.serialByte_getLsbD_zero {c : Params} (aux_pos : c.auxPos ≠ 0) (p : PortIx) (q : Port) (aux : Bool) :
    (q.serialByte c p aux).getLsbD 0 = !q.sr.getLsbD 0 := by
  have above : 0 < c.auxPos.val := Fin.pos_iff_ne_zero.2 aux_pos
  rw [Port.serialByte_eq, BitVec.getLsbD_or]
  have elsewhere : (if p = c.auxPort ∧ aux = true then 1#8 <<< c.auxPos.val else 0x00).getLsbD 0 = false := by
    split
    · rw [BitVec.getLsbD_shiftLeft]; simp [above]
    · rfl
  rw [elsewhere, Bool.or_false]
  cases q.sr.getLsbD 0 <;> rfl

/-- A strobe-low read of a port in a read-out. -/
theorem ReadingOut.read {s : State} {p : PortIx} {mask : Byte} {n : Nat} (reading : ReadingOut s p mask n)
    (aux_pos : s.params.auxPos ≠ 0) :
    ∃ u r, exec (.prLow p) s = .next u ∧ u.result = .data r ∧
      r.getLsbD 0 = if n < 8 then mask.getLsbD n else Config.padExhausted.getLsbD 0 := by
  obtain ⟨q, present, -, remaining⟩ := reading
  refine ⟨_, _, withPort_present (serialRead p) present, rfl, ?_⟩
  rw [State.start_params, Port.serialByte_getLsbD_zero aux_pos, remaining 0 (by decide), Bool.not_not, Nat.add_zero]

/-- Reads and line changes of a port that is there complete, for no operation takes a port away. -/
theorem execAll_reads_complete {p : PortIx} {is : List Instr}
    (ok : ∀ i ∈ is, i = .prLow p ∨ ∃ mask aux, i = .input p mask aux) {s : State} {q : Port}
    (present : s.ports[p.val]? = some q) : ∃ t, execAll is s = .next t := by
  induction is generalizing s q with
  | nil => exact ⟨s, rfl⟩
  | cons i is ih =>
    obtain ⟨u, hu⟩ : ∃ u, exec i s = .next u := by
      rcases ok i (.head is) with rfl | ⟨mask, aux, rfl⟩ <;> exact ⟨_, withPort_present _ present⟩
    obtain ⟨q', present', -⟩ := (exec_effect hu).portsStep.2 p.val q present
    obtain ⟨t, ht⟩ := ih (fun j hj => ok j (.tail i hj)) present'
    exact ⟨t, (execAll_cons_of_next hu is).trans ht⟩

/-- Settles O46: by `ReadingOut`, which the falling edge begins and every allowed operation carries on. -/
theorem readOutEnumeratesTheButtonsThenExhausts : Obligations.ReadOutEnumeratesTheButtonsThenExhausts := by
  intro s p q v is hc present high low
  obtain ⟨-, -, -, -, -, aux_pos⟩ := (Params.wf_iff s.params).1 hc
  refine ⟨fun t ok h => ?_, fun ok => ?_⟩
  · obtain ⟨u, hu, rest⟩ := execAll_cons_next h
    have reading := (exec_pw_readingOut present (Port.falls_iff.2 ⟨high, low⟩) hu).run ok rest
    rw [Nat.zero_add] at reading
    exact reading.read (execAll_params h ▸ aux_pos)
  · have write := exec_pw_of_present present v
    obtain ⟨q', present', -⟩ := (exec_effect write).portsStep.2 p.val q present
    obtain ⟨t, ht⟩ := execAll_reads_complete ok present'
    exact ⟨t, (execAll_cons_of_next write is).trans ht⟩

end Sys2Proof.Machine


/-! PROOFS of the filter statements (spec/43_controller.md section 2, R199 to R210, and section 3, R216): the table of one
axis, and what a poll establishes. -/

namespace Sys2Proof.Machine

/-! ### One axis: two different buttons -/

/-- The four values of an axis are different, and each of its directions is the other's complement there. -/
theorem btnMask_pair : ∀ i j : Fin 8, i ≠ j →
    btnMask i ≠ 0 ∧ btnMask i ≠ btnMask j ∧ btnMask i ||| btnMask j ≠ 0 ∧ btnMask i ≠ btnMask i ||| btnMask j ∧
    btnMask j ≠ btnMask i ||| btnMask j ∧ btnMask i &&& (btnMask i ||| btnMask j) = btnMask i ∧
    (btnMask i ||| btnMask j) &&& ~~~btnMask i = btnMask j := by
  decide

theorem IsAxisPair.symm {A B : Byte} (pair : IsAxisPair A B) : IsAxisPair B A := by
  obtain ⟨i, j, ne, rfl, rfl⟩ := pair
  exact ⟨j, i, ne.symm, rfl, rfl⟩

theorem IsAxisPair.facts {A B : Byte} (pair : IsAxisPair A B) :
    A ≠ 0 ∧ A ≠ B ∧ A ||| B ≠ 0 ∧ A ≠ A ||| B ∧ B ≠ A ||| B ∧
      A &&& (A ||| B) = A ∧ (A ||| B) &&& ~~~A = B := by
  obtain ⟨i, j, ne, rfl, rfl⟩ := pair
  exact btnMask_pair i j ne

/-- A button masks a byte to nothing or to itself. -/
theorem and_btnMask (x : Byte) (i : Fin 8) : x &&& btnMask i = if x.getLsbD i.val then btnMask i else 0 := by
  apply BitVec.eq_of_getLsbD_eq
  intro k hk
  have bit := btnMask_getLsbD i ⟨k, hk⟩
  simp only at bit
  rw [BitVec.getLsbD_and, bit]
  by_cases here : (⟨k, hk⟩ : Fin 8) = i
  · subst here
    cases x.getLsbD k <;> simp [bit]
  · cases x.getLsbD i.val <;> simp [here, bit]

/-- What of a byte lies on an axis: nothing, one direction or both. -/
theorem IsAxisPair.part_cases {A B : Byte} (pair : IsAxisPair A B) (x : Byte) :
    x &&& (A ||| B) = 0 ∨ x &&& (A ||| B) = A ∨ x &&& (A ||| B) = B ∨ x &&& (A ||| B) = A ||| B := by
  obtain ⟨i, j, -, rfl, rfl⟩ := pair
  rw [BitVec.and_or_distrib_left, and_btnMask, and_btnMask]
  cases x.getLsbD i.val <;> cases x.getLsbD j.val <;> simp

/-- One direction is something and not both, and of a byte nothing or all of it lies under it. -/
theorem IsAxisPair.direction {A B X : Byte} (pair : IsAxisPair A B) (dir : X = A ∨ X = B) :
    X ≠ 0 ∧ X ≠ A ||| B ∧ X &&& (A ||| B) = X ∧ ∀ x, X &&& x = 0 ∨ X &&& x = X := by
  obtain ⟨A_ne, -, -, A_ne_P, B_ne_P, A_on, -⟩ := pair.facts
  obtain ⟨B_ne, -, -, -, -, B_on, -⟩ := pair.symm.facts
  rw [BitVec.or_comm] at B_on
  obtain ⟨i, j, -, rfl, rfl⟩ := pair
  have under (k : Fin 8) (x : Byte) : btnMask k &&& x = 0 ∨ btnMask k &&& x = btnMask k := by
    rw [BitVec.and_comm, and_btnMask]
    cases x.getLsbD k.val <;> simp
  rcases dir with rfl | rfl
  · exact ⟨A_ne, A_ne_P, A_on, under i⟩
  · exact ⟨B_ne, B_ne_P, B_on, under j⟩

/-! ### The axis, by what is held -/

/-- The directions of an axis that are held and were not (R200). -/
def pressEdge (raw prev A B : Byte) : Byte := raw &&& (A ||| B) &&& ~~~(prev &&& (A ||| B))

/-- One direction held: the press-tracking modes pass it, the repress modes unless it is neither remembered nor a press. -/
theorem axis_of_single {A B X raw : Byte} (pair : IsAxisPair A B) (dir : X = A ∨ X = B) (held : raw &&& (A ||| B) = X)
    (prev m : Byte) :
    axis .off raw prev m A B = (X, 0) ∧ axis .neutral raw prev m A B = (X, 0) ∧
    axis .firstPress raw prev m A B = (X, X) ∧ axis .latestPress raw prev m A B = (X, X) ∧
    axis .firstRepress raw prev m A B = (if X = m ∨ pressEdge raw prev A B = X then (X, X) else (0, 0)) ∧
    axis .latestRepress raw prev m A B = (if X = m ∨ pressEdge raw prev A B = X then (X, X) else (0, 0)) := by
  obtain ⟨some, single, -, under⟩ := pair.direction dir
  have press : (pressEdge raw prev A B &&& X != 0) = true ↔ pressEdge raw prev A B = X := by
    have zero : (0 : Byte) &&& X = 0 := BitVec.zero_and
    rw [bne_iff_ne, pressEdge, held]
    rcases under (~~~(prev &&& (A ||| B))) with e | e
    · rw [e, zero]
      exact ⟨absurd rfl, fun h => absurd h.symm some⟩
    · rw [e, BitVec.and_self]
      exact ⟨fun _ => rfl, fun _ => some⟩
  simp only [pressEdge, held] at press ⊢
  simp only [axis, held, beq_iff_eq, if_neg some, if_neg single, Bool.or_eq_true, press, and_self]

/-- Both directions held: the four modes by the remembered winner and by whether one of the two is a press (R203 to R207). -/
theorem axis_of_both {A B raw : Byte} (pair : IsAxisPair A B) (held : raw &&& (A ||| B) = A ||| B) (prev m : Byte) :
    axis .off raw prev m A B = (A ||| B, 0) ∧ axis .neutral raw prev m A B = (0, 0) ∧
    axis .firstPress raw prev m A B = (if m ≠ 0 then (m, m)
      else if isSingle A B ((A ||| B) &&& ~~~pressEdge raw prev A B) then
        ((A ||| B) &&& ~~~pressEdge raw prev A B, (A ||| B) &&& ~~~pressEdge raw prev A B)
      else (0, 0)) ∧
    axis .latestPress raw prev m A B = (if isSingle A B (pressEdge raw prev A B) then
      (pressEdge raw prev A B, pressEdge raw prev A B) else (m, m)) ∧
    axis .firstRepress raw prev m A B = (if m ≠ 0 then (m, m)
      else if isSingle A B (pressEdge raw prev A B) then (pressEdge raw prev A B, pressEdge raw prev A B) else (0, 0)) ∧
    axis .latestRepress raw prev m A B = (if isSingle A B (pressEdge raw prev A B) then
      (pressEdge raw prev A B, pressEdge raw prev A B) else (m, m)) := by
  obtain ⟨-, -, some, -⟩ := pair.facts
  simp only [axis, pressEdge, held, beq_self_eq_true, if_true, beq_eq_false_iff_ne.2 some,
    Bool.false_eq_true, if_false, bne_iff_ne, and_self]

theorem isSingle_iff {A B x : Byte} : isSingle A B x = true ↔ x = A ∨ x = B := by
  rw [isSingle, Bool.or_eq_true, beq_iff_eq, beq_iff_eq]

/-- With both directions held the press is nothing, one of them or both. -/
theorem pressEdge_cases {A B raw : Byte} (pair : IsAxisPair A B) (held : raw &&& (A ||| B) = A ||| B) (prev : Byte) :
    pressEdge raw prev A B = 0 ∨ pressEdge raw prev A B = A ∨ pressEdge raw prev A B = B ∨
      pressEdge raw prev A B = A ||| B := by
  rw [pressEdge, held, BitVec.and_comm]
  exact pair.part_cases _

/-- With both directions held, all but the press is one direction exactly when the press is the other one. -/
theorem isSingle_rest {A B raw : Byte} (pair : IsAxisPair A B) (held : raw &&& (A ||| B) = A ||| B) (prev : Byte) :
    isSingle A B ((A ||| B) &&& ~~~pressEdge raw prev A B) = true ↔ isSingle A B (pressEdge raw prev A B) = true := by
  obtain ⟨A_ne, -, -, A_ne_P, B_ne_P, -, restA⟩ := pair.facts
  obtain ⟨B_ne, -, -, -, -, -, restB⟩ := pair.symm.facts
  rw [BitVec.or_comm B A] at restB
  rw [isSingle_iff, isSingle_iff]
  rcases pressEdge_cases pair held prev with e | e | e | e <;> rw [e]
  · have rest : (A ||| B) &&& ~~~(0 : Byte) = A ||| B := BitVec.and_allOnes
    rw [rest]
    simp only [A_ne.symm, B_ne.symm, A_ne_P.symm, B_ne_P.symm]
  · rw [restA]; simp
  · rw [restB]; simp
  · have rest : (A ||| B) &&& ~~~(A ||| B) = 0 := BitVec.and_not_self _
    rw [rest]
    simp only [A_ne.symm, B_ne.symm, A_ne_P.symm, B_ne_P.symm]

/-- Settles O51: nothing held, one direction held and both held are the three equations above; with both held the rest of
the pair is one direction exactly when the press is. -/
theorem axisFollowsItsTable : Obligations.AxisFollowsItsTable := by
  intro A B raw prev m pair _ P cur e
  have idle (mode : FilterMode) (none : cur = 0) : axis mode raw prev m A B = (0, 0) := axis_of_noneHeld none mode prev m
  have press_iff : isSingle A B e = true ↔ e = A ∨ e = B := isSingle_iff
  refine ⟨idle, ?_, fun single => ?_, fun both won => ?_, fun both fresh press => ?_, fun both fresh noPress => ?_⟩
  · rcases pair.part_cases raw with held | held | held | held
    · rw [idle .off held, show cur = 0 from held]
    · rw [(axis_of_single pair (.inl rfl) held prev m).1, show cur = A from held]
    · rw [(axis_of_single pair (.inr rfl) held prev m).1, show cur = B from held]
    · rw [(axis_of_both pair held prev m).1, show cur = A ||| B from held]
  · obtain ⟨-, -, passes⟩ := axis_of_single pair single rfl prev m
    exact passes
  · obtain ⟨-, -, firstPress, latestPress, firstRepress, latestRepress⟩ := axis_of_both pair both prev m
    rw [if_pos won] at firstPress firstRepress
    rw [latestPress, latestRepress]
    exact ⟨firstPress, firstRepress, if_congr press_iff rfl rfl, if_congr press_iff rfl rfl⟩
  · have rest := (isSingle_rest pair both prev).2 (press_iff.2 press)
    obtain ⟨-, -, firstPress, latestPress, firstRepress, latestRepress⟩ := axis_of_both pair both prev m
    rw [if_neg (not_not.2 fresh)] at firstPress firstRepress
    exact ⟨firstPress.trans (if_pos rest), latestPress.trans (if_pos (press_iff.2 press)), firstRepress.trans (if_pos (press_iff.2 press)),
      latestRepress.trans (if_pos (press_iff.2 press))⟩
  · have noSingle : ¬isSingle A B e = true := fun h => noPress (press_iff.1 h)
    have noRest := fun h => noSingle ((isSingle_rest pair both prev).1 h)
    obtain ⟨-, -, firstPress, latestPress, firstRepress, latestRepress⟩ := axis_of_both pair both prev m
    rw [if_neg (not_not.2 fresh)] at firstPress firstRepress
    subst fresh
    exact ⟨firstPress.trans (if_neg noRest), latestPress.trans (if_neg noSingle), firstRepress.trans (if_neg noSingle),
      latestRepress.trans (if_neg noSingle)⟩

/-! ### What the filter gives on one axis -/

/-- `AxisResult mode raw A B r`: the answers of the filter on an axis. -/
inductive AxisResult (mode : FilterMode) (raw A B : Byte) : Byte × Byte → Prop
  | nothing : AxisResult mode raw A B (0, 0)
  | remembered {X} : X = A ∨ X = B → X &&& raw = X → AxisResult mode raw A B (X, X)
  | passed {X} : X = A ∨ X = B → X &&& raw = X → (mode = .off ∨ mode = .neutral) → AxisResult mode raw A B (X, 0)
  | both : (A ||| B) &&& raw = A ||| B → mode = .off → AxisResult mode raw A B (A ||| B, 0)

theorem AxisResult.ite {mode : FilterMode} {raw A B : Byte} {r r' : Byte × Byte} {p : Prop} [Decidable p]
    (h : p → AxisResult mode raw A B r) (h' : ¬p → AxisResult mode raw A B r') :
    AxisResult mode raw A B (if p then r else r') := by
  split
  next hp => exact h hp
  next hp => exact h' hp

theorem axis_result_of_single {A B X raw : Byte} (pair : IsAxisPair A B) (dir : X = A ∨ X = B)
    (part : raw &&& (A ||| B) = X) (mode : FilterMode) (prev m : Byte) :
    AxisResult mode raw A B (axis mode raw prev m A B) := by
  have held : X &&& raw = X := by rw [← part, BitVec.and_assoc, BitVec.and_comm _ raw, ← BitVec.and_assoc, BitVec.and_self]
  obtain ⟨off, neutral, firstPress, latestPress, firstRepress, latestRepress⟩ := axis_of_single pair dir part prev m
  cases mode with
  | off => rw [off]; exact .passed dir held (.inl rfl)
  | neutral => rw [neutral]; exact .passed dir held (.inr rfl)
  | firstPress => rw [firstPress]; exact .remembered dir held
  | latestPress => rw [latestPress]; exact .remembered dir held
  | firstRepress => rw [firstRepress]; exact .ite (fun _ => .remembered dir held) fun _ => .nothing
  | latestRepress => rw [latestRepress]; exact .ite (fun _ => .remembered dir held) fun _ => .nothing

/-- With both directions held every mode but `OFF` and neutral answers a direction it remembers, or nothing. -/
theorem axis_result_of_both {A B raw m : Byte} (pair : IsAxisPair A B) (part : raw &&& (A ||| B) = A ||| B)
    (legal : m = 0 ∨ m = A ∨ m = B) (mode : FilterMode) (prev : Byte) :
    AxisResult mode raw A B (axis mode raw prev m A B) := by
  have held {X : Byte} (dir : X = A ∨ X = B) : X &&& raw = X := by
    obtain ⟨-, -, onAxis, -⟩ := pair.direction dir
    rw [← onAxis, BitVec.and_assoc, BitVec.and_comm _ raw, part]
  have single {X : Byte} (h : isSingle A B X = true) : AxisResult mode raw A B (X, X) :=
    .remembered (isSingle_iff.1 h) (held (isSingle_iff.1 h))
  have winner : AxisResult mode raw A B (m, m) := by
    rcases legal with rfl | dir
    · exact .nothing
    · exact .remembered dir (held dir)
  obtain ⟨off, neutral, firstPress, latestPress, firstRepress, latestRepress⟩ := axis_of_both pair part prev m
  cases mode with
  | off => rw [off]; exact .both (by rw [BitVec.and_comm, part]) rfl
  | neutral => rw [neutral]; exact .nothing
  | firstPress => rw [firstPress]; exact .ite (fun _ => winner) fun _ => .ite single fun _ => .nothing
  | latestPress => rw [latestPress]; exact .ite single fun _ => winner
  | firstRepress => rw [firstRepress]; exact .ite (fun _ => winner) fun _ => .ite single fun _ => .nothing
  | latestRepress => rw [latestRepress]; exact .ite single fun _ => winner

theorem axis_result {A B m : Byte} (pair : IsAxisPair A B) (legal : m = 0 ∨ m = A ∨ m = B) (mode : FilterMode)
    (raw prev : Byte) : AxisResult mode raw A B (axis mode raw prev m A B) := by
  rcases pair.part_cases raw with part | part | part | part
  · rw [axis_of_noneHeld part]; exact .nothing
  · exact axis_result_of_single pair (.inl rfl) part mode prev m
  · exact axis_result_of_single pair (.inr rfl) part mode prev m
  · exact axis_result_of_both pair part legal mode prev

section
variable {mode : FilterMode} {raw A B : Byte} {r : Byte × Byte}

theorem AxisResult.mask_legal (h : AxisResult mode raw A B r) : r.2 = 0 ∨ r.2 = A ∨ r.2 = B := by
  cases h with
  | remembered dir _ => exact .inr dir
  | _ => exact .inl rfl

theorem AxisResult.held (h : AxisResult mode raw A B r) : r.1 &&& raw = r.1 := by
  cases h with
  | nothing => exact BitVec.zero_and
  | remembered _ held | passed _ held _ | both held _ => exact held

theorem AxisResult.onAxis (pair : IsAxisPair A B) (h : AxisResult mode raw A B r) : r.1 &&& (A ||| B) = r.1 := by
  cases h with
  | nothing => exact BitVec.zero_and
  | remembered dir _ | passed dir _ _ => exact (pair.direction dir).2.2.1
  | both _ _ => exact BitVec.and_self

theorem AxisResult.not_both (pair : IsAxisPair A B) (h : AxisResult mode raw A B r) (notOff : mode ≠ .off) :
    r.1 ≠ A ||| B := by
  cases h with
  | nothing => exact pair.facts.2.2.1.symm
  | remembered dir _ | passed dir _ _ => exact (pair.direction dir).2.1
  | both _ off => exact absurd off notOff

theorem AxisResult.out_eq_mask (h : AxisResult mode raw A B r) (notOff : mode ≠ .off) (notNeutral : mode ≠ .neutral) :
    r.1 = r.2 := by
  cases h with
  | nothing | remembered _ _ => rfl
  | passed _ _ passing => rcases passing with off | neutral <;> contradiction
  | both _ off => exact absurd off notOff

end

/-! ### The three parts of a mask -/

theorem btnMask_and_of_ne : ∀ i j : Fin 8, i ≠ j → btnMask i &&& btnMask j = 0#8 := by decide

/-- Of consistent parameters the plain buttons, the horizontal axis and the vertical axis share no bit. -/
theorem buttons_apart {c : Params} (nodup : c.buttons.Nodup) :
    IsAxisPair (btnLeft c) (btnRight c) ∧ IsAxisPair (btnUp c) (btnDown c) ∧
    plainButtons c &&& (btnLeft c ||| btnRight c) = 0 ∧ plainButtons c &&& (btnUp c ||| btnDown c) = 0 ∧
    (btnLeft c ||| btnRight c) &&& (btnUp c ||| btnDown c) = 0 := by
  simp only [Params.buttons, List.nodup_cons, List.mem_cons, List.not_mem_nil, or_false, not_or, List.nodup_nil, and_true,
    not_false_eq_true] at nodup
  obtain ⟨A, B, select, start, ⟨up_down, up_left, up_right⟩, ⟨down_left, down_right⟩, left_right⟩ := nodup
  refine ⟨⟨_, _, left_right, rfl, rfl⟩, ⟨_, _, up_down, rfl, rfl⟩, ?_⟩
  simp [plainButtons, btnLeft, btnRight, btnUp, btnDown, BitVec.and_or_distrib_left, BitVec.and_or_distrib_right,
    btnMask_and_of_ne, A, B, select, start, Ne.symm up_left, Ne.symm up_right, Ne.symm down_left, Ne.symm down_right]

theorem wf_buttons_nodup {c : Params} (hc : c.wf = true) : c.buttons.Nodup := by
  obtain ⟨-, -, -, -, nodup, -⟩ := (Params.wf_iff c).1 hc
  exact nodup

/-- The parts of a mask that three disjoint masks cut out. -/
theorem parts_and {N H V n h v : Byte} (hn : n &&& N = n) (hh : h &&& H = h) (hv : v &&& V = v) (NH : N &&& H = 0)
    (NV : N &&& V = 0) (HV : H &&& V = 0) :
    (n ||| h ||| v) &&& N = n ∧ (n ||| h ||| v) &&& H = h ∧ (n ||| h ||| v) &&& V = v := by
  have other {x X Y : Byte} (hx : x &&& X = x) (XY : X &&& Y = 0) : x &&& Y = 0 := by
    rw [← hx, BitVec.and_assoc, XY]
    exact BitVec.and_zero
  have swap {X Y : Byte} (XY : X &&& Y = 0) : Y &&& X = 0 := by rw [BitVec.and_comm, XY]
  simp only [BitVec.and_or_distrib_right, hn, hh, hv, other hn NH, other hn NV, other hh (swap NH), other hh HV,
    other hv (swap NV), other hv (swap HV)]
  simp

/-- The parts of the mask a poll latches, and its resolution masks. -/
theorem Port.poll_parts (c : Params) (q : Port) :
    (q.poll c).state = q.buttonsIn &&& plainButtons c |||
      (axis q.mode q.buttonsIn q.prevRaw q.hmask (btnLeft c) (btnRight c)).1 |||
      (axis q.mode q.buttonsIn q.prevRaw q.vmask (btnUp c) (btnDown c)).1 ∧
    (q.poll c).hmask = (axis q.mode q.buttonsIn q.prevRaw q.hmask (btnLeft c) (btnRight c)).2 ∧
    (q.poll c).vmask = (axis q.mode q.buttonsIn q.prevRaw q.vmask (btnUp c) (btnDown c)).2 := ⟨rfl, rfl, rfl⟩

/-- Settles O52: each axis part is an `AxisResult` of its own axis, and three disjoint masks tell the parts apart. -/
theorem pollKeepsTheFilterInvariants : Obligations.PollKeepsTheFilterInvariants := by
  intro c q hc legalH legalV horizontal vertical
  obtain ⟨pairH, pairV, NH, NV, HV⟩ := buttons_apart (wf_buttons_nodup hc)
  obtain ⟨out, hmask, vmask⟩ := q.poll_parts c
  have resultH := axis_result pairH legalH q.mode q.buttonsIn q.prevRaw
  have resultV := axis_result pairV legalV q.mode q.buttonsIn q.prevRaw
  have plain : q.buttonsIn &&& plainButtons c &&& plainButtons c = q.buttonsIn &&& plainButtons c := by
    rw [BitVec.and_assoc, BitVec.and_self]
  obtain ⟨partN, partH, partV⟩ := parts_and plain (resultH.onAxis pairH) (resultV.onAxis pairV) NH NV HV
  rw [← out] at partN partH partV
  refine ⟨⟨hmask ▸ resultH.mask_legal, vmask ▸ resultV.mask_legal, partN, ?_⟩, rfl, fun notOff => ⟨?_, ?_⟩,
    fun notOff notNeutral => ⟨?_, ?_⟩⟩
  · have sampled : (q.poll c).state &&& q.buttonsIn = (q.poll c).state := by
      rw [out, BitVec.and_or_distrib_right, BitVec.and_or_distrib_right, resultH.held, resultV.held, BitVec.and_assoc,
        BitVec.and_comm _ q.buttonsIn, ← BitVec.and_assoc, BitVec.and_self]
    rw [Port.poll_prevRaw, ← sampled, BitVec.and_assoc, BitVec.and_not_self]
    exact BitVec.and_zero
  · rw [partH]; exact resultH.not_both pairH notOff
  · rw [partV]; exact resultV.not_both pairV notOff
  · rw [partH, hmask]; exact resultH.out_eq_mask notOff notNeutral
  · rw [partV, vmask]; exact resultV.out_eq_mask notOff notNeutral

end Sys2Proof.Machine


/-! PROOFS of the snapshot statements (spec/44_snapshot.md; spec/70_reset_and_hazards.md section 2): cycle boundaries, what
SAVE returns, and how a load stages its chunks. -/

namespace Sys2Proof.Machine

/-! ### Cycle boundaries -/

/-- A bus transaction opens the cycle (log 14). -/
theorem Effect.inCycle_of_bus {i : Instr} {s t : State} (h : Effect i s t) (bus : IsBusWrite i ∨ IsBusRead i) :
    t.inCycle = true := by
  cases h with
  | irqControl _ _ => rw [storeIrqControl_eq]; rfl
  | busPad _ _ => unfold padRead; split <;> rfl
  | sync row => rcases row with rfl | rfl | rfl | rfl <;> simp [IsBusWrite, IsBusRead, opClass] at bus
  | latch _ _ | register _ _ _ _ | countLow _ _ | countHigh _ _ | lowWrite _ _ | lowRead _ _ | unmappedWrite _ _
    | unmappedRead _ _ _ | strobeAll => rfl
  | _ => simp [IsBusWrite, IsBusRead, opClass] at bus

theorem exec_clk_inCycle {s t : State} (h : exec .clk s = .next t) : t.inCycle = false := by
  cases hb : s.board with
  | none => cases Host.Outcome.next.inj ((exec_clk_of_noBoard hb).symm.trans h); rfl
  | some b =>
    cases Host.Outcome.next.inj ((exec_clk_of_board hb).symm.trans h)
    rw [surfaceFired_eq]
    rfl

theorem exec_save_insideCycle {s : State} (inside : s.inCycle = true) : exec .save s = .refused .insideCycle := if_pos inside

theorem exec_load_insideCycle {s : State} (inside : s.inCycle = true) (snap : Snapshot) (tag : Nat) :
    exec (.load snap tag) s = .refused .insideCycle := if_pos inside

/-- Settles O58: SAVE and LOAD ask for the boundary first; the effects of bus rows begin with `State.beginBus`, the pulse
ends the cycle. -/
theorem snapshotsOnlyAtCycleBoundaries : Obligations.SnapshotsOnlyAtCycleBoundaries :=
  ⟨fun _ inside => ⟨exec_save_insideCycle inside, exec_load_insideCycle inside⟩,
    fun _ _ _ h bus => (exec_effect h).inCycle_of_bus bus, fun _ _ => exec_clk_inCycle⟩

/-! ### Save -/

theorem exec_save_boundary {s : State} (boundary : s.inCycle = false) :
    exec .save s = .next { s with result := .snapshot (snapshotOf s), calls := [] } := by
  refine if_neg ?_
  rw [boundary]
  exact Bool.false_ne_true

/-- The chunks of the ports, one per port, in ascending order. -/
theorem padChunks_of_le_four {ports : List Port} (h : ports.length ≤ 4) :
    (padChunks ports).length = ports.length ∧
      ∀ p : PortIx, (padChunks ports)[p.val]? = ports[p.val]?.map (padChunk p) := by
  match ports, h with
  | [], _ | [_], _ | [_, _], _ | [_, _, _], _ | [_, _, _, _], _ => exact ⟨rfl, fun p => by fin_cases p <;> rfl⟩
  | _ :: _ :: _ :: _ :: _ :: _, h => simp at h; omega

theorem bitByte_shiftLeft (b : Bool) (n : Nat) : bitByte b <<< n = if b then 1#8 <<< n else 0x00 := by
  cases b with
  | true => rfl
  | false => exact BitVec.zero_shiftLeft n

/-- Settles O53: the snapshot is the board chunk, its fields as R235 lays them out, before `padChunks`. -/
theorem saveReturnsAllOwnedState : Obligations.SaveReturnsAllOwnedState := by
  intro s boundary few
  obtain ⟨length, chunks⟩ := padChunks_of_le_four few
  refine ⟨padChunks s.ports, ?_, length, fun p q hq => by rw [chunks, hq]; rfl⟩
  rw [exec_save_boundary boundary, snapshotOf]
  cases hb : s.board with
  | none => rfl
  | some b =>
    simp only [boardChunk, Variant.caps_eq, referenceCapabilities, referenceSave, timerBits, bitByte_shiftLeft]
    rfl

end Sys2Proof.Machine


/-! PROOFS of the snapshot statements (spec/44_snapshot.md sections 2 to 4), continued: a load is staged, skips what it does
not know and replaces exactly what its chunks carry. -/

namespace Sys2Proof.Machine

/-! ### Tags -/

/-- No tag is repeated exactly when the tags are distinct. -/
theorem duplicateTag_eq_none_iff {snap : Snapshot} : duplicateTag snap = none ↔ (snap.map Chunk.tag).Nodup := by
  induction snap with
  | nil => simp [duplicateTag]
  | cons c rest ih =>
    have repeated_iff : (rest.any fun d => d.tag == c.tag) = true ↔ c.tag ∈ rest.map Chunk.tag := by
      simp only [List.any_eq_true, beq_iff_eq, List.mem_map]
    rw [duplicateTag, List.map_cons, List.nodup_cons, ← ih, ← repeated_iff]
    split
    next repeated => simp only [reduceCtorEq, repeated, not_true_eq_false, false_and]
    next fresh => simp only [fresh, Bool.false_eq_true, not_false_eq_true, true_and]

/-- A chunk whose tag no other chunk has decides nothing about repeated tags. -/
theorem duplicateTag_insert {before after : Snapshot} {u : Chunk} (unique : ∀ d ∈ before ++ after, d.tag ≠ u.tag) :
    duplicateTag (before ++ u :: after) = duplicateTag (before ++ after) := by
  induction before with
  | nil =>
    refine if_neg ?_
    simpa using unique
  | cons c rest ih =>
    have other : u.tag ≠ c.tag := (unique c (by simp)).symm
    simp only [List.cons_append, duplicateTag, List.any_append, List.any_cons, beq_eq_false_iff_ne.2 other, Bool.false_or,
      ih fun d hd => unique d (.tail c hd)]

/-! ### Parsing -/

theorem parseAll_append (s : State) (xs ys : Snapshot) : parseAll s (xs ++ ys) =
    (parseAll s xs).bind fun a => (parseAll s ys).bind fun b => .ok (a ++ b) := by
  induction xs with
  | nil =>
    simp only [List.nil_append, parseAll, Except.bind]
    cases parseAll s ys <;> rfl
  | cons c rest ih =>
    simp only [List.cons_append, parseAll, ih]
    cases parseChunk s c with
    | error e => rfl
    | ok st => cases parseAll s rest <;> cases parseAll s ys <;> rfl

/-- A chunk that fails to parse fails the snapshot it stands in. -/
theorem parseAll_error_of_chunk {s : State} {c : Chunk} {e : Error} (h : parseChunk s c = .error e)
    (before after : Snapshot) : ∃ e', parseAll s (before ++ c :: after) = .error e' := by
  rw [parseAll_append]
  cases parseAll s before with
  | error e' => exact ⟨e', rfl⟩
  | ok a => exact ⟨e, by simp only [Except.bind, parseAll, h]⟩

theorem referenceLoad_of_short {c : Params} {p : List Byte} (h : p.length < 18) : referenceLoad c p = none := if_pos h

theorem parsePad_of_short {p : List Byte} (h : p.length < 2) : parsePad p = none := if_pos h

/-- A chunk of a present component that is too short is malformed. -/
theorem parseChunk_error_of_short {s : State} {c : Chunk}
    (h : (c.tag = .board ∧ s.board.isSome = true ∧ c.payload.length < 18) ∨
      ∃ p : PortIx, c.tag = .pad p ∧ p.val < s.ports.length ∧ c.payload.length < 2) :
    ∃ e, parseChunk s c = .error e := by
  rcases h with ⟨tag, active, short⟩ | ⟨p, tag, inside, short⟩
  · obtain ⟨b, hb⟩ := Option.isSome_iff_exists.1 active
    simp only [parseChunk, tag, hb, Variant.caps_eq, referenceCapabilities, referenceLoad_of_short short]
    exact ⟨_, rfl⟩
  · simp only [parseChunk, tag, List.getElem?_eq_getElem inside, parsePad_of_short short]
    exact ⟨_, rfl⟩

/-! ### A load at a cycle boundary -/

theorem exec_load_boundary {s : State} (boundary : s.inCycle = false) (snap : Snapshot) (tag : Nat) :
    exec (.load snap tag) s = loadSnapshot snap s := by
  refine if_neg ?_
  rw [boundary]
  exact Bool.false_ne_true

theorem loadSnapshot_of_duplicate {snap : Snapshot} {t : Tag} (h : duplicateTag snap = some t) (s : State) :
    loadSnapshot snap s = .next { s with result := .error (.formatError t .duplicateTag), calls := [] } := by
  simp only [loadSnapshot, h, raise_eq]

theorem loadSnapshot_of_error {snap : Snapshot} {s : State} {e : Error} (unique : duplicateTag snap = none)
    (h : parseAll s snap = .error e) : loadSnapshot snap s = .next { s with result := .error e, calls := [] } := by
  simp only [loadSnapshot, unique, h, raise_eq]

theorem loadSnapshot_of_ok {snap : Snapshot} {s : State} {sts : List Staged} (unique : duplicateTag snap = none)
    (h : parseAll s snap = .ok sts) : loadSnapshot snap s = .next (commitAll s.start sts) := by
  simp only [loadSnapshot, unique, h]

/-- Settles O57: a repeated tag is reported before any chunk is parsed, a short chunk when it is, and nothing is committed
before (R233). -/
theorem malformedLoadsChangeNothing : Obligations.MalformedLoadsChangeNothing := by
  intro s before after c tag boundary bad
  rw [exec_load_boundary boundary]
  cases repeated : duplicateTag (before ++ c :: after) with
  | some t => exact ⟨t, .duplicateTag, loadSnapshot_of_duplicate repeated s⟩
  | none =>
    have short : ∃ e, parseChunk s c = .error e := by
      rcases bad with board | pad | ⟨d, hd, same⟩
      · exact parseChunk_error_of_short (.inl board)
      · exact parseChunk_error_of_short (.inr pad)
      · have distinct := duplicateTag_eq_none_iff.1 repeated
        rw [List.map_append, List.map_cons] at distinct
        obtain ⟨fresh, -⟩ := List.nodup_cons.1 distinct.of_append_right
        exact absurd (List.mem_map.2 ⟨d, hd, same⟩) fresh
    obtain ⟨e, he⟩ := short
    obtain ⟨e', he'⟩ := parseAll_error_of_chunk he before after
    obtain ⟨g, f, rfl⟩ := parseAll_error he'
    exact ⟨g, f, loadSnapshot_of_error repeated he'⟩

theorem commitAll_skipped (s : State) (a b : List Staged) : commitAll s (a ++ .skipped :: b) = commitAll s (a ++ b) := by
  simp only [commitAll, List.foldl_append, List.foldl_cons, commitOne]

/-- Settles O56: the chunk parses to `Staged.skipped`, which commits nothing, and its tag repeats none. -/
theorem unknownChunksAreSkipped : Obligations.UnknownChunksAreSkipped := by
  intro s before after b0 b1 b2 b3 ver pl tag unique
  have skipped (ys : Snapshot) : parseAll s (⟨.other b0 b1 b2 b3, ver, pl⟩ :: ys) =
      (parseAll s ys).bind fun b => .ok (.skipped :: b) := by
    simp only [parseAll, parseChunk]
    cases parseAll s ys <;> rfl
  have sameTags := duplicateTag_insert (u := ⟨.other b0 b1 b2 b3, ver, pl⟩) unique
  cases boundary : s.inCycle with
  | true => rw [exec_load_insideCycle boundary, exec_load_insideCycle boundary]
  | false =>
    rw [exec_load_boundary boundary, exec_load_boundary boundary]
    simp only [loadSnapshot, sameTags, parseAll_append, skipped]
    cases duplicateTag (before ++ after) with
    | some t => rfl
    | none =>
      cases parseAll s before with
      | error e => rfl
      | ok a =>
        cases parseAll s after with
        | error e => rfl
        | ok b => exact congrArg Host.Outcome.next (commitAll_skipped s.start a b)

end Sys2Proof.Machine


/-! PROOFS of the snapshot statements (spec/44_snapshot.md sections 2 to 4), continued: the fields a load replaces, and
loading what was saved. -/

namespace Sys2Proof.Machine

/-! ### What a chunk is staged as -/

/-- What a chunk that parses is staged as. -/
def stagedOf (s : State) (c : Chunk) : Staged :=
  match parseChunk s c with
  | .ok st => st
  | .error _ => .skipped

theorem parseAll_of_parse {s : State} {snap : Snapshot} (h : ∀ c ∈ snap, ∃ st, parseChunk s c = .ok st) :
    parseAll s snap = .ok (snap.map (stagedOf s)) := by
  induction snap with
  | nil => rfl
  | cons c rest ih =>
    obtain ⟨st, hst⟩ := h c (.head rest)
    have hrest := ih fun d hd => h d (.tail c hd)
    simp only [parseAll, hst, hrest, List.map_cons, stagedOf]

/-- The image a long enough board payload gives, field by field (R235). -/
theorem referenceLoad_of_long (c : Params) {p : List Byte} (long : 18 ≤ p.length) : ∃ img, referenceLoad c p = some img ∧
    img.latch = (p.getD 0 0).extractLsb' 0 4 ∧ (∀ i : RegIx, img.regs[i] = p.getD (1 + i.val) 0) ∧
    img.timer =
      { enabled := (p.getD 14 0).getLsbD c.enBit, src := (p.getD 14 0).getLsbD c.srcBit
        count := p.getD 16 0 ++ p.getD 15 0 } ∧
    img.irqReq = (p.getD 17 0).getLsbD 0 := by
  refine ⟨_, if_neg (Nat.not_lt.2 long), rfl, fun i => ?_, rfl, rfl⟩
  fin_cases i <;> rfl

theorem parsePad_of_long {p : List Byte} (long : 2 ≤ p.length) :
    parsePad p = some ((p.getD 0 0).getLsbD 0, p.getD 1 0 ^^^ 0xFF) :=
  if_neg (Nat.not_lt.2 long)

theorem parseChunk_board {s : State} {b : Board} {c : Chunk} {img : BoardImage} (hb : s.board = some b)
    (tag : c.tag = .board) (load : referenceLoad s.params c.payload = some img) : parseChunk s c = .ok (.board img) := by
  simp only [parseChunk, tag, hb, Variant.caps_eq, referenceCapabilities, load]

theorem parseChunk_pad {s : State} {p : PortIx} {c : Chunk} (inside : p.val < s.ports.length) (tag : c.tag = .pad p)
    (long : 2 ≤ c.payload.length) :
    parseChunk s c = .ok (.pad p ((c.payload.getD 0 0).getLsbD 0) (c.payload.getD 1 0 ^^^ 0xFF)) := by
  simp only [parseChunk, tag, List.getElem?_eq_getElem inside, parsePad_of_long long]

/-- A chunk that is long enough wherever its component is present parses; of an absent component it is skipped. -/
theorem parseChunk_of_long {s : State} {c : Chunk} (board : c.tag = .board → s.board.isSome = true → 18 ≤ c.payload.length)
    (pad : ∀ p, c.tag = .pad p → p.val < s.ports.length → 2 ≤ c.payload.length) : ∃ st, parseChunk s c = .ok st := by
  cases tag : c.tag with
  | other b0 b1 b2 b3 => exact ⟨.skipped, by simp only [parseChunk, tag]⟩
  | board =>
    cases hb : s.board with
    | none => exact ⟨.skipped, by simp only [parseChunk, tag, hb]⟩
    | some b =>
      obtain ⟨img, load, -⟩ := referenceLoad_of_long s.params (board tag (by rw [hb]; rfl))
      exact ⟨_, parseChunk_board hb tag load⟩
  | pad p =>
    by_cases inside : p.val < s.ports.length
    · exact ⟨_, parseChunk_pad inside tag (pad p tag inside)⟩
    · exact ⟨.skipped, by simp only [parseChunk, tag, List.getElem?_eq_none (Nat.le_of_not_lt inside)]⟩

/-- What is staged is of the component its chunk's tag names. -/
theorem stagedOf_cases (s : State) (c : Chunk) : stagedOf s c = .skipped ∨
    (c.tag = .board ∧ s.board.isSome = true ∧ ∃ img, stagedOf s c = .board img) ∨
    ∃ p strobe sr, c.tag = .pad p ∧ stagedOf s c = .pad p strobe sr := by
  unfold stagedOf parseChunk
  cases tag : c.tag with
  | other b0 b1 b2 b3 => exact .inl rfl
  | board =>
    cases hb : s.board with
    | none => exact .inl rfl
    | some b =>
      dsimp only
      cases (b.variant.caps s.params).load c.payload with
      | none => exact .inl rfl
      | some img => exact .inr (.inl ⟨rfl, rfl, img, rfl⟩)
  | pad p =>
    dsimp only
    cases s.ports[p.val]? with
    | none => exact .inl rfl
    | some q =>
      dsimp only
      cases parsePad c.payload with
      | none => exact .inl rfl
      | some r => exact .inr (.inr ⟨p, r.1, r.2, rfl, rfl⟩)

/-! ### What is committed -/

/-- The Board's side of a state, which a board chunk replaces. -/
def boardSide (s : State) : Option Board × Vector Byte 13 × Bool × List CollCall := (s.board, s.banks, s.irqLine, s.calls)

theorem commitOne_pad_boardSide (u : State) (p : PortIx) (strobe : Bool) (sr : Byte) :
    boardSide (commitOne u (.pad p strobe sr)) = boardSide u := by
  simp only [commitOne, commitPad]
  split <;> rfl

theorem commitOne_board_ports (u : State) (img : BoardImage) : (commitOne u (.board img)).ports = u.ports := by
  simp only [commitOne, commitBoard]
  split <;> rfl

theorem commitOne_pad_other {u : State} {p p' : PortIx} (other : p' ≠ p) (strobe : Bool) (sr : Byte) :
    (commitOne u (.pad p' strobe sr)).ports[p.val]? = u.ports[p.val]? := by
  simp only [commitOne, commitPad]
  split
  · exact List.getElem?_set_ne fun e => other (Fin.ext e)
  · rfl

/-- Chunks of other components leave the Board's side alone. -/
theorem commitAll_boardSide (s : State) {snap : Snapshot} (others : ∀ d ∈ snap, d.tag = .board → s.board = none)
    (u : State) : boardSide (commitAll u (snap.map (stagedOf s))) = boardSide u := by
  unfold commitAll
  induction snap generalizing u with
  | nil => rfl
  | cons c rest ih =>
    rw [List.map_cons, List.foldl_cons, ih fun d hd => others d (.tail c hd)]
    rcases stagedOf_cases s c with e | ⟨tag, active, -⟩ | ⟨p, strobe, sr, -, e⟩
    · rw [e]; rfl
    · rw [others c (.head rest) tag] at active; cases active
    · rw [e, commitOne_pad_boardSide]

/-- Chunks of other components leave a port alone. -/
theorem commitAll_port (s : State) {p : PortIx} {snap : Snapshot} (others : ∀ d ∈ snap, d.tag ≠ .pad p) (u : State) :
    (commitAll u (snap.map (stagedOf s))).ports[p.val]? = u.ports[p.val]? := by
  unfold commitAll
  induction snap generalizing u with
  | nil => rfl
  | cons c rest ih =>
    rw [List.map_cons, List.foldl_cons, ih fun d hd => others d (.tail c hd)]
    rcases stagedOf_cases s c with e | ⟨-, -, img, e⟩ | ⟨p', strobe, sr, tag, e⟩
    · rw [e]; rfl
    · rw [e, commitOne_board_ports]
    · rw [e]
      exact commitOne_pad_other (fun same => others c (.head rest) (by rw [tag, same])) strobe sr

/-- The one chunk of a tag, and the chunks before and after it, which have other tags. -/
theorem split_of_find {snap : Snapshot} {t : Tag} {c : Chunk} (distinct : (snap.map Chunk.tag).Nodup)
    (found : (snap.find? fun d => d.tag == t) = some c) : ∃ before after, snap = before ++ c :: after ∧ c.tag = t ∧
      (∀ d ∈ before, d.tag ≠ t) ∧ ∀ d ∈ after, d.tag ≠ t := by
  obtain ⟨here, before, after, rfl, none⟩ := List.find?_eq_some_iff_append.1 found
  rw [List.map_append, List.map_cons] at distinct
  obtain ⟨fresh, -⟩ := List.nodup_cons.1 distinct.of_append_right
  have tag : c.tag = t := by simpa using here
  refine ⟨before, after, rfl, tag, fun d hd => by simpa using none d hd, fun d hd same => fresh ?_⟩
  exact List.mem_map.2 ⟨d, hd, same.trans tag.symm⟩

theorem commitAll_split (s u : State) (before after : Snapshot) (c : Chunk) :
    commitAll u ((before ++ c :: after).map (stagedOf s)) =
      commitAll (commitOne (commitAll u (before.map (stagedOf s))) (stagedOf s c)) (after.map (stagedOf s)) := by
  simp only [commitAll, List.map_append, List.map_cons, List.foldl_append, List.foldl_cons]

/-- What a load makes of a port: its chunk's fields, or the port itself when it has none. -/
def loadedPort (q : Port) : Option Chunk → Port
  | some c => { q with strobe := (c.payload.getD 0 0).getLsbD 0, sr := c.payload.getD 1 0 ^^^ 0xFF }
  | none => q

theorem commitAll_loadedPort {s : State} {snap : Snapshot} {p : PortIx} {q : Port} (distinct : (snap.map Chunk.tag).Nodup)
    (long : ∀ c ∈ snap, c.tag = .pad p → 2 ≤ c.payload.length) (present : s.ports[p.val]? = some q) :
    (commitAll s.start (snap.map (stagedOf s))).ports[p.val]? =
      some (loadedPort q (snap.find? fun c => c.tag == .pad p)) := by
  cases found : snap.find? fun c => c.tag == .pad p with
  | none =>
    rw [commitAll_port s fun d hd => by simpa using List.find?_eq_none.1 found d hd]
    exact present
  | some c =>
    obtain ⟨before, after, rfl, tag, others, others'⟩ := split_of_find distinct found
    obtain ⟨inside, -⟩ := List.getElem?_eq_some_iff.1 present
    have staged :
        stagedOf s c = .pad p ((c.payload.getD 0 0).getLsbD 0) (c.payload.getD 1 0 ^^^ 0xFF) := by
      rw [stagedOf, parseChunk_pad inside tag (long c (by simp) tag)]
    have reached := (commitAll_port s others s.start).trans present
    obtain ⟨inside', -⟩ := List.getElem?_eq_some_iff.1 reached
    rw [commitAll_split, commitAll_port s others', staged, commitOne, commitPad]
    simp only [reached]
    exact List.getElem?_set_self inside'

theorem commitAll_loadedBoard {s : State} {snap : Snapshot} {b : Board} {c : Chunk} {img : BoardImage}
    (distinct : (snap.map Chunk.tag).Nodup) (hb : s.board = some b)
    (found : (snap.find? fun c => c.tag == .board) = some c) (load : referenceLoad s.params c.payload = some img) :
    boardSide (commitAll s.start (snap.map (stagedOf s))) =
      (some (b.withImage img), img.regs, img.irqReq, bankCalls img.regs) := by
  obtain ⟨before, after, rfl, tag, others, others'⟩ := split_of_find distinct found
  have staged : stagedOf s c = .board img := by rw [stagedOf, parseChunk_board hb tag load]
  have reached := commitAll_boardSide s (fun d hd h => absurd h (others d hd)) s.start
  simp only [boardSide, Prod.mk.injEq] at reached
  obtain ⟨board, -, -, calls⟩ := reached
  rw [commitAll_split, commitAll_boardSide s fun d hd h => absurd h (others' d hd), staged, commitOne, commitBoard]
  simp only [board, State.start_board, hb, boardSide, State.irqLineCall_calls, State.tellAllBanks_calls,
    State.setBoard_calls, calls]
  rfl

/-- A state that keeps what no load changes is the old one with the other fields replaced. -/
theorem eq_of_load_frame {s t : State} (params : t.params = s.params) (construction : t.construction = s.construction)
    (aux : t.aux = s.aux) (wram : t.wram = s.wram) (inCycle : t.inCycle = s.inCycle) (trace : t.trace = s.trace) :
    t = { s with
      board := t.board, ports := t.ports, banks := t.banks, irqLine := t.irqLine, result := t.result, calls := t.calls } := by
  rw [← params, ← construction, ← aux, ← wram, ← inCycle, ← trace]

/-- Settles O54: every chunk parses, what is staged is of the component of its chunk's tag, and no other chunk has that
tag. -/
theorem loadReplacesExactlyTheCarriedFields : Obligations.LoadReplacesExactlyTheCarriedFields := by
  intro s snap tag boundary distinct boardLong padLong
  have parsed : parseAll s snap = .ok (snap.map (stagedOf s)) :=
    parseAll_of_parse fun c hc => parseChunk_of_long (boardLong c hc) (padLong c hc)
  have load := loadSnapshot_of_ok (duplicateTag_eq_none_iff.2 distinct) parsed
  obtain ⟨wram, aux, construction, inCycle, result, trace, params, length⟩ :=
    commitAll_frame (snap.map (stagedOf s)) s.start
  refine ⟨commitAll s.start (snap.map (stagedOf s)), (exec_load_boundary boundary snap tag).trans load, result, length,
    fun p q present => ?_, ?_, eq_of_load_frame params construction aux wram inCycle trace⟩
  · obtain ⟨inside, -⟩ := List.getElem?_eq_some_iff.1 present
    rw [commitAll_loadedPort distinct (fun c hc h => padLong c hc p h inside) present]
    cases snap.find? fun c => c.tag == .pad p <;> rfl
  · have kept (others : ∀ d ∈ snap, d.tag = .board → s.board = none) := commitAll_boardSide s others s.start
    simp only [boardSide, Prod.mk.injEq] at kept
    cases hb : s.board with
    | none =>
      obtain ⟨board, rest⟩ := kept fun _ _ _ => hb
      exact ⟨board.trans hb, rest⟩
    | some b =>
      cases found : snap.find? fun c => c.tag == .board with
      | none =>
        obtain ⟨board, rest⟩ := kept fun d hd h => absurd h (by simpa using List.find?_eq_none.1 found d hd)
        exact ⟨board.trans hb, rest⟩
      | some c =>
        have mem : c ∈ snap := List.mem_of_find?_eq_some found
        have tag : c.tag = .board := by simpa using List.find?_some found
        obtain ⟨img, load, latch, regs, timer, req⟩ :=
          referenceLoad_of_long s.params (boardLong c mem tag (by rw [hb]; rfl))
        have side := commitAll_loadedBoard distinct hb found load
        simp only [boardSide, Prod.mk.injEq] at side
        obtain ⟨board, banks, line, calls⟩ := side
        simp only [board, banks, line, calls, Board.withImage, latch, timer, req]
        exact ⟨regs, trivial, trivial, rfl⟩

end Sys2Proof.Machine


/-! PROOFS of the snapshot statements (spec/44_snapshot.md sections 2 to 4), continued: loading what was just saved. -/

namespace Sys2Proof.Machine

/-! ### The chunks of a save -/

theorem mem_padChunks {ports : List Port} {c : Chunk} :
    c ∈ padChunks ports ↔ ∃ p q, ports[p.val]? = some q ∧ padChunk p q = c := by
  simp [padChunks, List.mem_filterMap]

theorem padChunks_tags {ports : List Port} (h : ports.length ≤ 4) :
    (padChunks ports).map Chunk.tag = [Tag.pad 0, .pad 1, .pad 2, .pad 3].take ports.length := by
  match ports, h with
  | [], _ | [_], _ | [_, _], _ | [_, _, _], _ | [_, _, _, _], _ => rfl
  | _ :: _ :: _ :: _ :: _ :: _, h => simp at h; omega

theorem padChunks_tags_nodup {ports : List Port} (h : ports.length ≤ 4) : ((padChunks ports).map Chunk.tag).Nodup := by
  rw [padChunks_tags h]
  exact (List.take_sublist _ _).nodup (by decide)

/-- A saved chunk is the Board's or a present port's. -/
theorem mem_snapshotOf {s : State} {c : Chunk} : c ∈ snapshotOf s ↔
    (∃ b, s.board = some b ∧ boardChunk s.params b = c) ∨ ∃ p q, s.ports[p.val]? = some q ∧ padChunk p q = c := by
  unfold snapshotOf
  cases s.board with
  | none => simp [mem_padChunks]
  | some b => simp [mem_padChunks, eq_comm]

theorem snapshotOf_tags_nodup {s : State} (few : s.ports.length ≤ 4) : ((snapshotOf s).map Chunk.tag).Nodup := by
  unfold snapshotOf
  cases s.board with
  | none => exact padChunks_tags_nodup few
  | some b =>
    refine List.nodup_cons.2 ⟨fun mem => ?_, padChunks_tags_nodup few⟩
    obtain ⟨c, hc, tag⟩ := List.mem_map.1 mem
    obtain ⟨p, q, -, rfl⟩ := mem_padChunks.1 hc
    cases tag

/-- The one chunk of its tag is the one found. -/
theorem find_of_mem {snap : Snapshot} {c : Chunk} (distinct : (snap.map Chunk.tag).Nodup) (hc : c ∈ snap) :
    (snap.find? fun d => d.tag == c.tag) = some c := by
  cases found : snap.find? fun d => d.tag == c.tag with
  | none => exact absurd (beq_self_eq_true c.tag) (List.find?_eq_none.1 found c hc)
  | some d =>
    have same : d.tag = c.tag := by simpa using List.find?_some found
    rw [List.inj_on_of_nodup_map distinct (List.mem_of_find?_eq_some found) hc same]

/-! ### The fields of a save -/

theorem bitByte_shiftLeft_getLsbD (b : Bool) (i k : Fin 8) : (bitByte b <<< i.val).getLsbD k.val = (b && decide (k = i)) := by
  rw [bitByte_shiftLeft]
  cases b with
  | true => exact btnMask_getLsbD i k
  | false => exact BitVec.getLsbD_zero

/-- The two fields of byte 14 are read back where they stand apart. -/
theorem timerBits_fields {c : Params} (apart : c.enBit ≠ c.srcBit) (t : Timer) :
    irqEnBit c (timerBits c t) = t.enabled ∧ irqSrcBit c (timerBits c t) = t.src := by
  simp only [irqEnBit, irqSrcBit, timerBits, BitVec.getLsbD_or, bitByte_shiftLeft_getLsbD]
  simp [apart, apart.symm]

theorem bitByte_getLsbD_zero (b : Bool) : (bitByte b).getLsbD 0 = b := by cases b <;> rfl

/-- The saved payload, byte by byte (R235). -/
theorem referenceSave_getD (c : Params) (b : Board) :
    (referenceSave c b).length = 18 ∧ (referenceSave c b).getD 0 0 = b.latch.setWidth 8 ∧
    (∀ i : RegIx, (referenceSave c b).getD (1 + i.val) 0 = b.regs[i]) ∧
    (referenceSave c b).getD 14 0 = timerBits c b.timer ∧ (referenceSave c b).getD 15 0 = countLow b.timer.count ∧
    (referenceSave c b).getD 16 0 = countHigh b.timer.count ∧ (referenceSave c b).getD 17 0 = bitByte b.irqReq := by
  unfold referenceSave
  refine ⟨by simp, by simp, fun i => ?_, by simp, by simp, by simp, by simp⟩
  rw [Nat.add_comm]
  simp [List.getElem?_append]

/-! ### Loading what was saved -/

/-- The saved Board is the Board of the saved fields. -/
theorem withImage_of_save {c : Params} {b : Board} {regs : Vector Byte 13} (apart : c.enBit ≠ c.srcBit)
    (hregs : ∀ i : RegIx, regs[i] = (referenceSave c b).getD (1 + i.val) 0) : regs = b.regs ∧
    ({ b with
      latch := ((referenceSave c b).getD 0 0).extractLsb' 0 4
      regs := regs
      timer :=
        { enabled := ((referenceSave c b).getD 14 0).getLsbD c.enBit
          src := ((referenceSave c b).getD 14 0).getLsbD c.srcBit
          count := (referenceSave c b).getD 16 0 ++ (referenceSave c b).getD 15 0 }
      irqReq := ((referenceSave c b).getD 17 0).getLsbD 0 } : Board) = b := by
  obtain ⟨-, latch, bytes, bits, low, high, req⟩ := referenceSave_getD c b
  obtain ⟨enabled, src⟩ := timerBits_fields apart b.timer
  have same : regs = b.regs := Vector.ext fun i hi => (hregs ⟨i, hi⟩).trans (bytes ⟨i, hi⟩)
  have latch' : (b.latch.setWidth 8).extractLsb' 0 4 = b.latch := by
    generalize b.latch = l
    revert l
    decide
  have count : countHigh b.timer.count ++ countLow b.timer.count = b.timer.count := countOf_bytes b.timer.count
  refine ⟨same, ?_⟩
  simp only [irqEnBit, irqSrcBit] at enabled src
  rw [latch, bits, low, high, req, latch', same, enabled, src, count, bitByte_getLsbD_zero]

theorem padChunk_fields (q : Port) :
    { q with strobe := ((padPayload q).getD 0 0).getLsbD 0, sr := (padPayload q).getD 1 0 ^^^ 0xFF } = q := by
  have sr : q.sr ^^^ 0xFF ^^^ 0xFF = q.sr := by rw [BitVec.xor_assoc, BitVec.xor_self]; exact BitVec.xor_zero
  simp only [padPayload, List.getD_cons_zero, List.getD_cons_succ, bitByte_getLsbD_zero, sr]

theorem boardChunk_payload (c : Params) (b : Board) : (boardChunk c b).payload = referenceSave c b := by
  rw [boardChunk, Variant.caps_eq]
  rfl

/-- Every saved chunk is long enough. -/
theorem snapshotOf_long {s : State} {c : Chunk} (hc : c ∈ snapshotOf s) :
    (c.tag = .board → 18 ≤ c.payload.length) ∧ ∀ p, c.tag = .pad p → 2 ≤ c.payload.length := by
  rcases mem_snapshotOf.1 hc with ⟨b, -, rfl⟩ | ⟨p, q, -, rfl⟩
  · refine ⟨fun _ => ?_, fun p h => nomatch h⟩
    rw [boardChunk_payload, (referenceSave_getD s.params b).1]
  · exact ⟨(nomatch ·), fun _ _ => Nat.le_refl 2⟩

/-- Lists of at most four ports are equal when they are as long and hold the same ports. -/
theorem ports_ext {ps qs : List Port} (few : ps.length ≤ 4) (length : qs.length = ps.length)
    (same : ∀ (p : PortIx) (q : Port), ps[p.val]? = some q → qs[p.val]? = some q) : qs = ps := by
  refine List.ext_getElem length fun k hk hk' => ?_
  have := same ⟨k, by omega⟩ ps[k] (List.getElem?_eq_getElem hk')
  exact List.getElem_eq_iff hk |>.2 this

/-- Settles O55: the saved chunks are as many as their components and long enough, so a load takes their fields (O54), and
each field is the one saved. -/
theorem loadingASaveIsTheIdentity : Obligations.LoadingASaveIsTheIdentity := by
  intro s tag inv boundary
  obtain ⟨-, -, -, apart, -⟩ := (Params.wf_iff s.params).1 inv.params_wf
  have distinct := snapshotOf_tags_nodup inv.ports_le
  obtain ⟨u, load, result, length, ports, side, frame⟩ := loadReplacesExactlyTheCarriedFields
    { s with result := .snapshot (snapshotOf s), calls := [] } (snapshotOf s) tag boundary distinct
    (fun c hc isBoard _ => (snapshotOf_long hc).1 isBoard) (fun c hc p isPad _ => (snapshotOf_long hc).2 p isPad)
  have samePorts : u.ports = s.ports := ports_ext inv.ports_le length fun p q present => by
    have found := find_of_mem distinct (mem_snapshotOf.2 (.inr ⟨p, q, present, rfl⟩))
    rw [show (padChunk p q).tag = .pad p from rfl] at found
    rw [ports p q present, found]
    exact congrArg some (padChunk_fields q)
  have sameSide : u.board = s.board ∧ u.banks = s.banks ∧ u.irqLine = s.irqLine := by
    cases hb : s.board with
    | none =>
      simp only [hb] at side
      exact ⟨side.1, side.2.1, side.2.2.1⟩
    | some b =>
      have found := find_of_mem distinct (mem_snapshotOf.2 (.inl ⟨b, hb, rfl⟩))
      rw [show (boardChunk s.params b).tag = .board from rfl] at found
      simp only [hb, found, boardChunk_payload] at side
      obtain ⟨bytes, board, line, -⟩ := side
      obtain ⟨banks, saved⟩ := withImage_of_save apart bytes
      obtain ⟨-, -, told⟩ := inv.agrees b hb
      obtain ⟨-, -, -, -, -, -, req⟩ := referenceSave_getD s.params b
      refine ⟨board.trans (congrArg some saved), banks.trans told.symm, ?_⟩
      rw [line, req, bitByte_getLsbD_zero, inv.line, State.irqReq_of_board hb]
  obtain ⟨board, banks, line⟩ := sameSide
  rw [board, banks, line, samePorts, result] at frame
  exact ⟨_, snapshotOf s, u.calls, exec_save_boundary boundary, rfl, load.trans (congrArg Host.Outcome.next frame)⟩

end Sys2Proof.Machine


/-! PROOFS of the statements about the invariant (spec/10_state.md section 5; spec/43_controller.md R216): it holds at
reset and every step keeps it. -/

namespace Sys2Proof.Machine

/-! ### Legal ports -/

/-- A port that is legal stays legal when neither its masks nor the latched and the sampled mask change. -/
theorem Port.Legal.congr {c : Params} {q q' : Port} (h : q.Legal c) (hmask : q'.hmask = q.hmask) (vmask : q'.vmask = q.vmask)
    (state : q'.state = q.state) (prevRaw : q'.prevRaw = q.prevRaw) : q'.Legal c := by
  unfold Port.Legal
  rw [hmask, vmask, state, prevRaw]
  exact h

/-- A port with nothing latched, sampled or remembered is legal. -/
theorem Port.legal_of_cleared {c : Params} {q : Port} (hmask : q.hmask = 0) (vmask : q.vmask = 0) (state : q.state = 0)
    (prevRaw : q.prevRaw = 0) : q.Legal c := by
  refine ⟨.inl hmask, .inl vmask, by rw [state, prevRaw], ?_⟩
  rw [state]
  exact BitVec.zero_and

theorem Port.Legal.poll {c : Params} (hc : c.wf = true) {q : Port} (h : q.Legal c) : (q.poll c).Legal c := by
  obtain ⟨horizontal, vertical, -⟩ := h
  exact (pollKeepsTheFilterInvariants c q hc horizontal vertical).1

theorem Port.Legal.strobeWrite {c : Params} (hc : c.wf = true) {q : Port} (h : q.Legal c) (v : Byte) :
    (q.strobeWrite c v).Legal c := by
  by_cases falls : q.falls v = true
  · rw [Port.strobeWrite_of_falls falls]
    exact (h.poll hc).congr rfl rfl rfl rfl
  · rw [Port.strobeWrite_of_not_falls falls]
    exact h.congr rfl rfl rfl rfl

/-- A port stays legal, whatever the operation. -/
theorem PortStep.legal {c : Params} (hc : c.wf = true) {i : Instr} {k : Nat} {q q' : Port} (h : PortStep c i k q q')
    (legal : q.Legal c) : q'.Legal c := by
  cases h with
  | same _ => exact legal
  | strobe _ => exact legal.strobeWrite hc _
  | polled _ _ => exact legal.poll hc
  | setMode _ _ =>
    obtain ⟨-, -, plain, sampled⟩ := legal
    exact ⟨.inl rfl, .inl rfl, plain, sampled⟩
  | reset _ => exact Port.legal_of_cleared rfl rfl rfl rfl
  | serial _ _ | lines _ _ | loaded _ _ _ => exact legal.congr rfl rfl rfl rfl

theorem PortsStep.legal {c : Params} (hc : c.wf = true) {i : Instr} {ps qs : List Port} (h : PortsStep c i ps qs)
    (legal : ∀ q ∈ ps, q.Legal c) : ∀ q ∈ qs, q.Legal c := by
  obtain ⟨length, ports⟩ := h
  intro q' hq'
  obtain ⟨k, hk, rfl⟩ := List.getElem_of_mem hq'
  have inside : k < ps.length := length ▸ hk
  obtain ⟨q'', hq'', step⟩ := ports k ps[k] (List.getElem?_eq_getElem inside)
  cases (List.getElem?_eq_getElem hk).symm.trans hq''
  exact step.legal hc (legal _ (List.getElem_mem inside))

/-! ### The reset state -/

theorem resetWith_inv {c : Params} {n : Nat} (hc : c.wf = true) (one : 1 ≤ n) (four : n ≤ 4) : (State.resetWith c n).Inv where
  params_wf := hc
  ports_pos := by rw [State.resetWith, List.length_replicate]; exact one
  ports_le := by rw [State.resetWith, List.length_replicate]; exact four
  ports_legal q hq := by
    rw [List.eq_of_mem_replicate hq]
    exact Port.legal_of_cleared rfl rfl rfl rfl
  line := rfl
  agrees b hb := by cases hb
  built := rfl
  ram := rfl

/-- Settles O59: with no Board, fresh ports and nothing written, every consistent choice of the parameters will do. -/
theorem resetMeetsTheInvariant : Obligations.ResetMeetsTheInvariant :=
  ⟨resetWith_inv default_params_wf (by decide) (by decide), fun _ _ => resetWith_inv⟩

/-! ### The Board's side -/

/-- The interrupt line follows the request, and the Board agrees with its Context, its variant and the collaborator. -/
def BoardInv (s : State) : Prop := s.irqLine = s.irqReq ∧ ∀ b, s.board = some b → b.Agrees s.params s.banks

theorem boardInv_of_board {t : State} {b : Board} (hb : t.board = some b) (line : t.irqLine = b.irqReq)
    (agrees : b.Agrees t.params t.banks) : BoardInv t := by
  refine ⟨line.trans (State.irqReq_of_board hb).symm, fun b' hb' => ?_⟩
  cases hb.symm.trans hb'
  exact agrees

theorem boardInv_of_noBoard {t : State} (hb : t.board = none) (line : t.irqLine = false) : BoardInv t := by
  refine ⟨line.trans (State.irqReq_of_noBoard hb).symm, fun b' hb' => ?_⟩
  cases hb.symm.trans hb'

theorem BoardInv.of_board {s : State} {b : Board} (inv : BoardInv s) (hb : s.board = some b) :
    s.irqLine = b.irqReq ∧ b.Agrees s.params s.banks :=
  ⟨inv.1.trans (State.irqReq_of_board hb), inv.2 b hb⟩

theorem BoardInv.congr {s t : State} (inv : BoardInv s) (board : t.board = s.board) (banks : t.banks = s.banks)
    (line : t.irqLine = s.irqLine) (params : t.params = s.params) : BoardInv t := by
  unfold BoardInv State.irqReq
  rw [board, banks, line, params]
  exact inv

/-- A Board newly made from what a Board agrees with agrees with the collaborator that is told of its registers. -/
theorem newBoard_agrees {c : Params} {ctx : Context} {v : Variant} (selected : supported ctx.variantSelector = some v) :
    (newBoard c ctx v (v.caps c).ranges).Agrees c (newBoard c ctx v (v.caps c).ranges).regs := by
  cases v
  exact ⟨selected, rfl, rfl⟩

/-- Every effect keeps the line at the level of the request and the collaborator told of what the registers hold. -/
theorem Effect.boardInv {i : Instr} {s t : State} (h : Effect i s t) (inv : BoardInv s) : BoardInv t := by
  cases h with
  | latch hb _ =>
    obtain ⟨line, agrees⟩ := inv.of_board hb
    exact boardInv_of_board rfl line agrees
  | register k _ hb _ =>
    obtain ⟨line, selected, bindings, told⟩ := inv.of_board hb
    refine boardInv_of_board rfl line ⟨selected, bindings, ?_⟩
    rw [storeReg_eq, State.beginBus_banks, told]
    rfl
  | irqControl hb _ =>
    obtain ⟨line, agrees⟩ := inv.of_board hb
    rw [storeIrqControl_eq]
    exact boardInv_of_board rfl (congrArg (· && _) line) agrees
  | countLow hb _ | countHigh hb _ =>
    obtain ⟨-, agrees⟩ := inv.of_board hb
    exact boardInv_of_board rfl rfl agrees
  | pulse hb =>
    obtain ⟨line, agrees⟩ := inv.of_board hb
    rw [surfaceFired_eq]
    exact boardInv_of_board rfl (congrArg (_ || ·) line) agrees
  | @soft _ b hb =>
    obtain ⟨-, agrees⟩ := inv.of_board hb
    exact boardInv_of_board (congrArg some (caps_reset_soft s.params b)) rfl agrees
  | @hard _ b hb =>
    obtain ⟨-, selected, bindings, -⟩ := inv.of_board hb
    have reset := caps_reset_hard_eq_newBoard s.params b
    refine boardInv_of_board (congrArg some reset) rfl ?_
    change Board.Agrees s.params _ ((b.variant.caps s.params).reset true b).regs
    rw [reset, bindings]
    exact newBoard_agrees selected
  | loaded _ _ _ =>
    obtain ⟨-, -, -, -, -, -, params, -⟩ := commitAll_frame _ s.start
    rcases commitAll_commits _ s.start with ⟨board, banks, line⟩ | ⟨b, img, hb, board, banks, line⟩
    · exact inv.congr board banks line params
    · obtain ⟨-, selected, bindings, -⟩ := inv.of_board hb
      exact boardInv_of_board board line ⟨selected, params ▸ bindings, banks⟩
  | busPad _ _ => unfold padRead; split <;> exact inv
  | constructed _ selected _ =>
    refine boardInv_of_board rfl rfl (newBoard_agrees (v := .reference) ?_)
    rw [selected]; rfl
  | destroyed _ => exact boardInv_of_noBoard rfl rfl
  | _ => exact inv

/-! ### Every step -/

/-- No operation opens a construction: one that is open only takes further ranges. -/
theorem Effect.built {i : Instr} {s t : State} (h : Effect i s t) (none : s.construction = none) :
    t.construction = Option.none := by
  cases h with
  | irqControl _ _ => rw [storeIrqControl_eq]; exact none
  | pulse _ => rw [surfaceFired_eq]; exact none
  | busPad _ _ => unfold padRead; split <;> exact none
  | loaded _ _ _ =>
    obtain ⟨-, -, construction, -⟩ := commitAll_frame _ s.start
    exact construction.trans none
  | constructed _ _ _ => rfl
  | bound building _ => cases none.symm.trans building
  | _ => exact none

theorem Effect.ram_wf {i : Instr} {s t : State} (h : Effect i s t) (wf : s.wram.wf = true) : t.wram.wf = true := by
  rcases h.wram with kept | ⟨a, v, b, -, written⟩
  · rw [kept, wf]
  · rw [written]; exact collLowWrite_wf s.params b a v s.wram wf

/-- Every operation keeps the invariant, part by part. -/
theorem Effect.inv {i : Instr} {s t : State} (h : Effect i s t) (inv : s.Inv) : t.Inv := by
  obtain ⟨params, -⟩ := h.frame
  have ports := h.portsStep
  obtain ⟨line, agrees⟩ := h.boardInv ⟨inv.line, inv.agrees⟩
  exact {
    params_wf := params ▸ inv.params_wf
    ports_pos := ports.1 ▸ inv.ports_pos
    ports_le := ports.1 ▸ inv.ports_le
    ports_legal := params ▸ ports.legal inv.params_wf inv.ports_legal
    line := line
    agrees := agrees
    built := h.built inv.built
    ram := h.ram_wf inv.ram }

/-- The invariant says nothing of the trace. -/
theorem inv_of_trace {s : State} (inv : s.Inv) (rest : List TraceItem) : ({ s with trace := rest } : State).Inv :=
  { inv with }

/-- Settles O60: a step is idle or one operation (`step_cons_next`), and every operation keeps the invariant. -/
theorem everyStepKeepsTheInvariant : Obligations.EveryStepKeepsTheInvariant := by
  intro s t inv h
  cases ht : s.trace with
  | nil =>
    cases (step_of_empty_trace ht).symm.trans h
    exact inv
  | cons it rest =>
    obtain ⟨i, -, hi⟩ := step_cons_next ht h
    exact (exec_effect hi).inv (inv_of_trace inv rest)

end Sys2Proof.Machine
